-- ==== Sys2Proof/Word.lean ====
section
/-! DEFINITION. The word types of the block (spec/00_scope.md rules R8, R13). -/

namespace Sys2Proof

/-- A data word of either view: `FB_DW = RB_DW = 32` (R8). A register narrower than 32 bits is held
zero-extended in a `Word`. -/
abbrev Word := BitVec 32

/-- One byte of a request as the decoder reads it. -/
abbrev Byte := BitVec 8

/-- A sample vector: bit `p` is the sample of phase `p`, phase 0 the earliest (R13). With one sample
a tick (`OSF = 1`) only bit 0 is used. -/
abbrev Samples := BitVec 8

/-- A subcycle: a phase index of three bits; 0 where `SUBW = 0` (R8, R30). -/
abbrev Subcycle := BitVec 3

/-- One sample vector per channel. There are `NCH ≤ 32` channels (R8); the places from `NCH` on belong
to no channel. -/
abbrev Lanes := Vector Samples 32

end Sys2Proof
end

