-- ==== Sys2Proof/Syntax.lean ====
section
/-! DEFINITION. The host operations (spec/30_encoding.md rule R120): one constructor per row of
spec/opcode_table.json. A write carries its data word whole, also where the operation ignores it or part
of it (R106, R108, R127), so that an encoding is read without loss. -/

namespace Sys2Proof

/-- The two register views of the host (R70). -/
inductive View where
  | regBank
  | fastBus
deriving DecidableEq, Repr

/-- A host operation of either view. `idx` of a reserved register-bank operation is the whole register
index (R289), `adr` of a reserved fast-bus operation the low address byte (R317). -/
inductive Instr where
  | rbWrCounterZero (wdata : Word)
  | rbRdCounterZero
  | rbWrArm (wdata : Word)
  | rbRdArm
  | rbWrForce (wdata : Word)
  | rbRdForce
  | rbWrFlushCapture (wdata : Word)
  | rbRdFlushCapture
  | rbWrFlushSchedule (wdata : Word)
  | rbRdFlushSchedule
  | rbWrLevel (wdata : Word)
  | rbRdLevel
  | rbWrRisingEn (wdata : Word)
  | rbRdRisingEn
  | rbWrFallingEn (wdata : Word)
  | rbRdFallingEn
  | rbWrOutputEn (wdata : Word)
  | rbRdOutputEn
  | rbWrCounter (wdata : Word)
  | rbRdCounter
  | rbWrCapTime (wdata : Word)
  | rbRdCapTime
  | rbWrCapData (wdata : Word)
  | rbRdCapData
  | rbWrCapNext (wdata : Word)
  | rbRdCapNext
  | rbWrSchedTime (wdata : Word)
  | rbRdSchedTime
  | rbWrSchedData (wdata : Word)
  | rbRdSchedData
  | rbWrSchedNext (wdata : Word)
  | rbRdSchedNext
  | rbRdReserved (idx : BitVec 5)
  | rbWrReserved (idx : BitVec 5) (wdata : Word)
  | fbWrCounter (wdata : Word)
  | fbRdCounter
  | fbWrCapTime (wdata : Word)
  | fbRdCapTime
  | fbWrCapData (wdata : Word)
  | fbRdCapData
  | fbWrCapNext (wdata : Word)
  | fbRdCapNext
  | fbWrSchedTime (wdata : Word)
  | fbRdSchedTime
  | fbWrSchedData (wdata : Word)
  | fbRdSchedData
  | fbWrSchedNext (wdata : Word)
  | fbRdSchedNext
  | fbRdReserved (adr : BitVec 8)
  | fbWrReserved (adr : BitVec 8) (wdata : Word)
deriving DecidableEq, Repr

/-- The view an operation belongs to. -/
def Instr.view : Instr → View
  | .rbWrCounterZero _ => .regBank
  | .rbRdCounterZero => .regBank
  | .rbWrArm _ => .regBank
  | .rbRdArm => .regBank
  | .rbWrForce _ => .regBank
  | .rbRdForce => .regBank
  | .rbWrFlushCapture _ => .regBank
  | .rbRdFlushCapture => .regBank
  | .rbWrFlushSchedule _ => .regBank
  | .rbRdFlushSchedule => .regBank
  | .rbWrLevel _ => .regBank
  | .rbRdLevel => .regBank
  | .rbWrRisingEn _ => .regBank
  | .rbRdRisingEn => .regBank
  | .rbWrFallingEn _ => .regBank
  | .rbRdFallingEn => .regBank
  | .rbWrOutputEn _ => .regBank
  | .rbRdOutputEn => .regBank
  | .rbWrCounter _ => .regBank
  | .rbRdCounter => .regBank
  | .rbWrCapTime _ => .regBank
  | .rbRdCapTime => .regBank
  | .rbWrCapData _ => .regBank
  | .rbRdCapData => .regBank
  | .rbWrCapNext _ => .regBank
  | .rbRdCapNext => .regBank
  | .rbWrSchedTime _ => .regBank
  | .rbRdSchedTime => .regBank
  | .rbWrSchedData _ => .regBank
  | .rbRdSchedData => .regBank
  | .rbWrSchedNext _ => .regBank
  | .rbRdSchedNext => .regBank
  | .rbRdReserved _ => .regBank
  | .rbWrReserved _ _ => .regBank
  | .fbWrCounter _ => .fastBus
  | .fbRdCounter => .fastBus
  | .fbWrCapTime _ => .fastBus
  | .fbRdCapTime => .fastBus
  | .fbWrCapData _ => .fastBus
  | .fbRdCapData => .fastBus
  | .fbWrCapNext _ => .fastBus
  | .fbRdCapNext => .fastBus
  | .fbWrSchedTime _ => .fastBus
  | .fbRdSchedTime => .fastBus
  | .fbWrSchedData _ => .fastBus
  | .fbRdSchedData => .fastBus
  | .fbWrSchedNext _ => .fastBus
  | .fbRdSchedNext => .fastBus
  | .fbRdReserved _ => .fastBus
  | .fbWrReserved _ _ => .fastBus

end Sys2Proof
end

