-- ==== Sys2Proof/WellFormed.lean ====
section
/-! DEFINITION. Which terms of `Instr` stand for an operation that exists: the operand of a reserved
operation lies in the reserved range of its view (spec/30_encoding.md rules R110, R115, R125, R126).
Every other constructor is an operation with every value of its operands. -/

namespace Sys2Proof

/-- Register-bank indices 16 to 31 are reserved (R125). -/
abbrev ReservedIndex (idx : BitVec 5) : Prop := 16 ≤ idx.toNat

/-- Fast-bus addresses with low byte 0x07 to 0xFF are reserved (R126). -/
abbrev ReservedAddress (adr : BitVec 8) : Prop := 7 ≤ adr.toNat

/-- The well-formed operations. -/
def Instr.wellFormed : Instr → Bool
  | .rbWrCounterZero _ => true
  | .rbRdCounterZero => true
  | .rbWrArm _ => true
  | .rbRdArm => true
  | .rbWrForce _ => true
  | .rbRdForce => true
  | .rbWrFlushCapture _ => true
  | .rbRdFlushCapture => true
  | .rbWrFlushSchedule _ => true
  | .rbRdFlushSchedule => true
  | .rbWrLevel _ => true
  | .rbRdLevel => true
  | .rbWrRisingEn _ => true
  | .rbRdRisingEn => true
  | .rbWrFallingEn _ => true
  | .rbRdFallingEn => true
  | .rbWrOutputEn _ => true
  | .rbRdOutputEn => true
  | .rbWrCounter _ => true
  | .rbRdCounter => true
  | .rbWrCapTime _ => true
  | .rbRdCapTime => true
  | .rbWrCapData _ => true
  | .rbRdCapData => true
  | .rbWrCapNext _ => true
  | .rbRdCapNext => true
  | .rbWrSchedTime _ => true
  | .rbRdSchedTime => true
  | .rbWrSchedData _ => true
  | .rbRdSchedData => true
  | .rbWrSchedNext _ => true
  | .rbRdSchedNext => true
  | .rbRdReserved idx => decide (ReservedIndex idx)
  | .rbWrReserved idx _ => decide (ReservedIndex idx)
  | .fbWrCounter _ => true
  | .fbRdCounter => true
  | .fbWrCapTime _ => true
  | .fbRdCapTime => true
  | .fbWrCapData _ => true
  | .fbRdCapData => true
  | .fbWrCapNext _ => true
  | .fbRdCapNext => true
  | .fbWrSchedTime _ => true
  | .fbRdSchedTime => true
  | .fbWrSchedData _ => true
  | .fbRdSchedData => true
  | .fbWrSchedNext _ => true
  | .fbRdSchedNext => true
  | .fbRdReserved adr => decide (ReservedAddress adr)
  | .fbWrReserved adr _ => decide (ReservedAddress adr)

end Sys2Proof
end

