-- ==== Sys2Proof/Decode.lean ====
section
/-! DEFINITION. Decoder and encoder of host operations (spec/30_encoding.md rules R100, R101, R110, R115,
R120; spec/opcode_table.json). A request is a key and a data word. As bytes (log entry 9): the key in
whole bytes, the low byte first (one byte for the six bits of `RBREQ`, two for the nine of `FBREQ`), then
the four bytes of the data word, the low byte first. -/

namespace Sys2Proof

/-- Why a byte string is no request of its view. Neither can arise at the ports, which have six and nine
key wires. -/
inductive DecodeError where
  /-- the string does not have the length of a request of the view -/
  | wrongLength (view : View) (length : Nat)
  /-- a bit above the key is set in the key's bytes -/
  | unusedKeyBits (view : View) (key : Nat)
deriving DecidableEq, Repr

/-- The register-bank read of index `idx` (R110; indices 16 to 31: R289). -/
def decodeRbRead (idx : BitVec 5) : Instr :=
  match idx.toNat with
  | 0 => .rbRdCounterZero
  | 1 => .rbRdArm
  | 2 => .rbRdForce
  | 3 => .rbRdFlushCapture
  | 4 => .rbRdFlushSchedule
  | 5 => .rbRdLevel
  | 6 => .rbRdRisingEn
  | 7 => .rbRdFallingEn
  | 8 => .rbRdOutputEn
  | 9 => .rbRdCounter
  | 10 => .rbRdCapTime
  | 11 => .rbRdCapData
  | 12 => .rbRdCapNext
  | 13 => .rbRdSchedTime
  | 14 => .rbRdSchedData
  | 15 => .rbRdSchedNext
  | _ => .rbRdReserved idx

/-- The register-bank write of index `idx` (R110; indices 16 to 31: R289). -/
def decodeRbWrite (idx : BitVec 5) (wdata : Word) : Instr :=
  match idx.toNat with
  | 0 => .rbWrCounterZero wdata
  | 1 => .rbWrArm wdata
  | 2 => .rbWrForce wdata
  | 3 => .rbWrFlushCapture wdata
  | 4 => .rbWrFlushSchedule wdata
  | 5 => .rbWrLevel wdata
  | 6 => .rbWrRisingEn wdata
  | 7 => .rbWrFallingEn wdata
  | 8 => .rbWrOutputEn wdata
  | 9 => .rbWrCounter wdata
  | 10 => .rbWrCapTime wdata
  | 11 => .rbWrCapData wdata
  | 12 => .rbWrCapNext wdata
  | 13 => .rbWrSchedTime wdata
  | 14 => .rbWrSchedData wdata
  | 15 => .rbWrSchedNext wdata
  | _ => .rbWrReserved idx wdata

/-- Bits 4 to 0 of `RBREQ`: the register index (R100). -/
def rbreqIdx (key : BitVec 6) : BitVec 5 := key.extractLsb' 0 5

/-- Bit 5 of `RBREQ`: 1 = write (R100). -/
def rbreqWe (key : BitVec 6) : Bool := key.getLsbD 5

/-- The operation of a register-bank request (R100). Total: every key is an operation. -/
def decodeRb (key : BitVec 6) (wdata : Word) : Instr :=
  if rbreqWe key then decodeRbWrite (rbreqIdx key) wdata else decodeRbRead (rbreqIdx key)

/-- The fast-bus read of low address byte `adr` (R115; 0x07 to 0xFF: R317). -/
def decodeFbRead (adr : BitVec 8) : Instr :=
  match adr.toNat with
  | 0 => .fbRdCounter
  | 1 => .fbRdCapTime
  | 2 => .fbRdCapData
  | 3 => .fbRdCapNext
  | 4 => .fbRdSchedTime
  | 5 => .fbRdSchedData
  | 6 => .fbRdSchedNext
  | _ => .fbRdReserved adr

/-- The fast-bus write of low address byte `adr` (R115; 0x07 to 0xFF: R317). -/
def decodeFbWrite (adr : BitVec 8) (wdata : Word) : Instr :=
  match adr.toNat with
  | 0 => .fbWrCounter wdata
  | 1 => .fbWrCapTime wdata
  | 2 => .fbWrCapData wdata
  | 3 => .fbWrCapNext wdata
  | 4 => .fbWrSchedTime wdata
  | 5 => .fbWrSchedData wdata
  | 6 => .fbWrSchedNext wdata
  | _ => .fbWrReserved adr wdata

/-- Bits 7 to 0 of `FBREQ`: the low address byte (R101). -/
def fbreqAdr (key : BitVec 9) : BitVec 8 := key.extractLsb' 0 8

/-- Bit 8 of `FBREQ`: 1 = write (R101). -/
def fbreqWe (key : BitVec 9) : Bool := key.getLsbD 8

/-- The operation of a fast-bus request (R101). Total: every key is an operation. -/
def decodeFb (key : BitVec 9) (wdata : Word) : Instr :=
  if fbreqWe key then decodeFbWrite (fbreqAdr key) wdata else decodeFbRead (fbreqAdr key)

/-- A data word from its four bytes, the low byte first (log entry 9). -/
def wordOfBytes (b0 b1 b2 b3 : Byte) : Word := b3 ++ b2 ++ b1 ++ b0

/-- The four bytes of a data word, the low byte first (log entry 9). -/
def bytesOfWord (d : Word) : List Byte :=
  [d.extractLsb' 0 8, d.extractLsb' 8 8, d.extractLsb' 16 8, d.extractLsb' 24 8]

/-- The decoder: any bytes, on either view, give an operation or a rejection by name. -/
def decode (view : View) (bytes : List Byte) : Except DecodeError Instr :=
  match view, bytes with
  | .regBank, [k, b0, b1, b2, b3] =>
    if k.toNat < 64 then .ok (decodeRb (k.setWidth 6) (wordOfBytes b0 b1 b2 b3))
    else .error (.unusedKeyBits .regBank k.toNat)
  | .fastBus, [k0, k1, b0, b1, b2, b3] =>
    if (k1 ++ k0).toNat < 512 then .ok (decodeFb ((k1 ++ k0).setWidth 9) (wordOfBytes b0 b1 b2 b3))
    else .error (.unusedKeyBits .fastBus (k1 ++ k0).toNat)
  | .regBank, other => .error (.wrongLength .regBank other.length)
  | .fastBus, other => .error (.wrongLength .fastBus other.length)

/-- A register-bank request as bytes. -/
def rbRequest (key : BitVec 6) (wdata : Word) : View × List Byte :=
  (.regBank, key.setWidth 8 :: bytesOfWord wdata)

/-- A fast-bus request as bytes. -/
def fbRequest (key : BitVec 9) (wdata : Word) : View × List Byte :=
  (.fastBus, key.extractLsb' 0 8 :: (key.extractLsb' 8 1).setWidth 8 :: bytesOfWord wdata)

/-- The encoder, written from the keys of spec/opcode_table.json and of rules R257 to R289 and R303 to
R317. The data word of a read is not part of the operation (R100, R101: meaningful only when `we = 1`);
it is encoded as 0. -/
def encode : Instr → View × List Byte
  | .rbWrCounterZero wdata => rbRequest 0x20#6 wdata
  | .rbRdCounterZero => rbRequest 0x00#6 0#32
  | .rbWrArm wdata => rbRequest 0x21#6 wdata
  | .rbRdArm => rbRequest 0x01#6 0#32
  | .rbWrForce wdata => rbRequest 0x22#6 wdata
  | .rbRdForce => rbRequest 0x02#6 0#32
  | .rbWrFlushCapture wdata => rbRequest 0x23#6 wdata
  | .rbRdFlushCapture => rbRequest 0x03#6 0#32
  | .rbWrFlushSchedule wdata => rbRequest 0x24#6 wdata
  | .rbRdFlushSchedule => rbRequest 0x04#6 0#32
  | .rbWrLevel wdata => rbRequest 0x25#6 wdata
  | .rbRdLevel => rbRequest 0x05#6 0#32
  | .rbWrRisingEn wdata => rbRequest 0x26#6 wdata
  | .rbRdRisingEn => rbRequest 0x06#6 0#32
  | .rbWrFallingEn wdata => rbRequest 0x27#6 wdata
  | .rbRdFallingEn => rbRequest 0x07#6 0#32
  | .rbWrOutputEn wdata => rbRequest 0x28#6 wdata
  | .rbRdOutputEn => rbRequest 0x08#6 0#32
  | .rbWrCounter wdata => rbRequest 0x29#6 wdata
  | .rbRdCounter => rbRequest 0x09#6 0#32
  | .rbWrCapTime wdata => rbRequest 0x2A#6 wdata
  | .rbRdCapTime => rbRequest 0x0A#6 0#32
  | .rbWrCapData wdata => rbRequest 0x2B#6 wdata
  | .rbRdCapData => rbRequest 0x0B#6 0#32
  | .rbWrCapNext wdata => rbRequest 0x2C#6 wdata
  | .rbRdCapNext => rbRequest 0x0C#6 0#32
  | .rbWrSchedTime wdata => rbRequest 0x2D#6 wdata
  | .rbRdSchedTime => rbRequest 0x0D#6 0#32
  | .rbWrSchedData wdata => rbRequest 0x2E#6 wdata
  | .rbRdSchedData => rbRequest 0x0E#6 0#32
  | .rbWrSchedNext wdata => rbRequest 0x2F#6 wdata
  | .rbRdSchedNext => rbRequest 0x0F#6 0#32
  | .rbRdReserved idx => rbRequest (0#1 ++ idx) 0#32
  | .rbWrReserved idx wdata => rbRequest (1#1 ++ idx) wdata
  | .fbWrCounter wdata => fbRequest 0x100#9 wdata
  | .fbRdCounter => fbRequest 0x000#9 0#32
  | .fbWrCapTime wdata => fbRequest 0x101#9 wdata
  | .fbRdCapTime => fbRequest 0x001#9 0#32
  | .fbWrCapData wdata => fbRequest 0x102#9 wdata
  | .fbRdCapData => fbRequest 0x002#9 0#32
  | .fbWrCapNext wdata => fbRequest 0x103#9 wdata
  | .fbRdCapNext => fbRequest 0x003#9 0#32
  | .fbWrSchedTime wdata => fbRequest 0x104#9 wdata
  | .fbRdSchedTime => fbRequest 0x004#9 0#32
  | .fbWrSchedData wdata => fbRequest 0x105#9 wdata
  | .fbRdSchedData => fbRequest 0x005#9 0#32
  | .fbWrSchedNext wdata => fbRequest 0x106#9 wdata
  | .fbRdSchedNext => fbRequest 0x006#9 0#32
  | .fbRdReserved adr => fbRequest (0#1 ++ adr) 0#32
  | .fbWrReserved adr wdata => fbRequest (1#1 ++ adr) wdata

/-- The mnemonic of spec/opcode_table.json. -/
def Instr.mnemonic : Instr → String
  | .rbWrCounterZero _ => "RB.WR.COUNTER_ZERO"
  | .rbRdCounterZero => "RB.RD.COUNTER_ZERO"
  | .rbWrArm _ => "RB.WR.ARM"
  | .rbRdArm => "RB.RD.ARM"
  | .rbWrForce _ => "RB.WR.FORCE"
  | .rbRdForce => "RB.RD.FORCE"
  | .rbWrFlushCapture _ => "RB.WR.FLUSH_CAPTURE"
  | .rbRdFlushCapture => "RB.RD.FLUSH_CAPTURE"
  | .rbWrFlushSchedule _ => "RB.WR.FLUSH_SCHEDULE"
  | .rbRdFlushSchedule => "RB.RD.FLUSH_SCHEDULE"
  | .rbWrLevel _ => "RB.WR.LEVEL"
  | .rbRdLevel => "RB.RD.LEVEL"
  | .rbWrRisingEn _ => "RB.WR.RISING_EN"
  | .rbRdRisingEn => "RB.RD.RISING_EN"
  | .rbWrFallingEn _ => "RB.WR.FALLING_EN"
  | .rbRdFallingEn => "RB.RD.FALLING_EN"
  | .rbWrOutputEn _ => "RB.WR.OUTPUT_EN"
  | .rbRdOutputEn => "RB.RD.OUTPUT_EN"
  | .rbWrCounter _ => "RB.WR.COUNTER"
  | .rbRdCounter => "RB.RD.COUNTER"
  | .rbWrCapTime _ => "RB.WR.CAP_TIME"
  | .rbRdCapTime => "RB.RD.CAP_TIME"
  | .rbWrCapData _ => "RB.WR.CAP_DATA"
  | .rbRdCapData => "RB.RD.CAP_DATA"
  | .rbWrCapNext _ => "RB.WR.CAP_NEXT"
  | .rbRdCapNext => "RB.RD.CAP_NEXT"
  | .rbWrSchedTime _ => "RB.WR.SCHED_TIME"
  | .rbRdSchedTime => "RB.RD.SCHED_TIME"
  | .rbWrSchedData _ => "RB.WR.SCHED_DATA"
  | .rbRdSchedData => "RB.RD.SCHED_DATA"
  | .rbWrSchedNext _ => "RB.WR.SCHED_NEXT"
  | .rbRdSchedNext => "RB.RD.SCHED_NEXT"
  | .rbRdReserved _ => "RB.RD.RESERVED"
  | .rbWrReserved _ _ => "RB.WR.RESERVED"
  | .fbWrCounter _ => "FB.WR.COUNTER"
  | .fbRdCounter => "FB.RD.COUNTER"
  | .fbWrCapTime _ => "FB.WR.CAP_TIME"
  | .fbRdCapTime => "FB.RD.CAP_TIME"
  | .fbWrCapData _ => "FB.WR.CAP_DATA"
  | .fbRdCapData => "FB.RD.CAP_DATA"
  | .fbWrCapNext _ => "FB.WR.CAP_NEXT"
  | .fbRdCapNext => "FB.RD.CAP_NEXT"
  | .fbWrSchedTime _ => "FB.WR.SCHED_TIME"
  | .fbRdSchedTime => "FB.RD.SCHED_TIME"
  | .fbWrSchedData _ => "FB.WR.SCHED_DATA"
  | .fbRdSchedData => "FB.RD.SCHED_DATA"
  | .fbWrSchedNext _ => "FB.WR.SCHED_NEXT"
  | .fbRdSchedNext => "FB.RD.SCHED_NEXT"
  | .fbRdReserved _ => "FB.RD.RESERVED"
  | .fbWrReserved _ _ => "FB.WR.RESERVED"

/-- A row of spec/opcode_table.json: its format's view, `match` and `mask` over the key. -/
structure OpcodeRow where
  mnemonic : String
  view     : View
  pattern  : Nat
  mask     : Nat
deriving DecidableEq, Repr

/-- The rows of the register-bank format `RBREQ`, full masks before the reserved rows (R120). -/
def rbRows : List OpcodeRow := [
  ⟨"RB.WR.COUNTER_ZERO", .regBank, 0x20, 0x3F⟩,
  ⟨"RB.RD.COUNTER_ZERO", .regBank, 0x00, 0x3F⟩,
  ⟨"RB.WR.ARM", .regBank, 0x21, 0x3F⟩,
  ⟨"RB.RD.ARM", .regBank, 0x01, 0x3F⟩,
  ⟨"RB.WR.FORCE", .regBank, 0x22, 0x3F⟩,
  ⟨"RB.RD.FORCE", .regBank, 0x02, 0x3F⟩,
  ⟨"RB.WR.FLUSH_CAPTURE", .regBank, 0x23, 0x3F⟩,
  ⟨"RB.RD.FLUSH_CAPTURE", .regBank, 0x03, 0x3F⟩,
  ⟨"RB.WR.FLUSH_SCHEDULE", .regBank, 0x24, 0x3F⟩,
  ⟨"RB.RD.FLUSH_SCHEDULE", .regBank, 0x04, 0x3F⟩,
  ⟨"RB.WR.LEVEL", .regBank, 0x25, 0x3F⟩,
  ⟨"RB.RD.LEVEL", .regBank, 0x05, 0x3F⟩,
  ⟨"RB.WR.RISING_EN", .regBank, 0x26, 0x3F⟩,
  ⟨"RB.RD.RISING_EN", .regBank, 0x06, 0x3F⟩,
  ⟨"RB.WR.FALLING_EN", .regBank, 0x27, 0x3F⟩,
  ⟨"RB.RD.FALLING_EN", .regBank, 0x07, 0x3F⟩,
  ⟨"RB.WR.OUTPUT_EN", .regBank, 0x28, 0x3F⟩,
  ⟨"RB.RD.OUTPUT_EN", .regBank, 0x08, 0x3F⟩,
  ⟨"RB.WR.COUNTER", .regBank, 0x29, 0x3F⟩,
  ⟨"RB.RD.COUNTER", .regBank, 0x09, 0x3F⟩,
  ⟨"RB.WR.CAP_TIME", .regBank, 0x2A, 0x3F⟩,
  ⟨"RB.RD.CAP_TIME", .regBank, 0x0A, 0x3F⟩,
  ⟨"RB.WR.CAP_DATA", .regBank, 0x2B, 0x3F⟩,
  ⟨"RB.RD.CAP_DATA", .regBank, 0x0B, 0x3F⟩,
  ⟨"RB.WR.CAP_NEXT", .regBank, 0x2C, 0x3F⟩,
  ⟨"RB.RD.CAP_NEXT", .regBank, 0x0C, 0x3F⟩,
  ⟨"RB.WR.SCHED_TIME", .regBank, 0x2D, 0x3F⟩,
  ⟨"RB.RD.SCHED_TIME", .regBank, 0x0D, 0x3F⟩,
  ⟨"RB.WR.SCHED_DATA", .regBank, 0x2E, 0x3F⟩,
  ⟨"RB.RD.SCHED_DATA", .regBank, 0x0E, 0x3F⟩,
  ⟨"RB.WR.SCHED_NEXT", .regBank, 0x2F, 0x3F⟩,
  ⟨"RB.RD.SCHED_NEXT", .regBank, 0x0F, 0x3F⟩,
  ⟨"RB.RD.RESERVED", .regBank, 0x10, 0x30⟩,
  ⟨"RB.WR.RESERVED", .regBank, 0x30, 0x30⟩]

/-- The rows of the fast-bus format `FBREQ`, full masks before the reserved rows (R120). -/
def fbRows : List OpcodeRow := [
  ⟨"FB.WR.COUNTER", .fastBus, 0x100, 0x1FF⟩,
  ⟨"FB.RD.COUNTER", .fastBus, 0x000, 0x1FF⟩,
  ⟨"FB.WR.CAP_TIME", .fastBus, 0x101, 0x1FF⟩,
  ⟨"FB.RD.CAP_TIME", .fastBus, 0x001, 0x1FF⟩,
  ⟨"FB.WR.CAP_DATA", .fastBus, 0x102, 0x1FF⟩,
  ⟨"FB.RD.CAP_DATA", .fastBus, 0x002, 0x1FF⟩,
  ⟨"FB.WR.CAP_NEXT", .fastBus, 0x103, 0x1FF⟩,
  ⟨"FB.RD.CAP_NEXT", .fastBus, 0x003, 0x1FF⟩,
  ⟨"FB.WR.SCHED_TIME", .fastBus, 0x104, 0x1FF⟩,
  ⟨"FB.RD.SCHED_TIME", .fastBus, 0x004, 0x1FF⟩,
  ⟨"FB.WR.SCHED_DATA", .fastBus, 0x105, 0x1FF⟩,
  ⟨"FB.RD.SCHED_DATA", .fastBus, 0x005, 0x1FF⟩,
  ⟨"FB.WR.SCHED_NEXT", .fastBus, 0x106, 0x1FF⟩,
  ⟨"FB.RD.SCHED_NEXT", .fastBus, 0x006, 0x1FF⟩,
  ⟨"FB.RD.RESERVED", .fastBus, 0x000, 0x100⟩,
  ⟨"FB.WR.RESERVED", .fastBus, 0x100, 0x100⟩]

/-- The rows of a view's format. -/
def View.opcodeRows : View → List OpcodeRow
  | .regBank => rbRows
  | .fastBus => fbRows

/-- The key of a request as bytes: the first byte of `RBREQ`; the first two, low byte first, of `FBREQ`. -/
def requestKey : View × List Byte → Nat
  | (.regBank, k :: _) => k.toNat
  | (.fastBus, k0 :: k1 :: _) => (k1 ++ k0).toNat
  | (.regBank, []) => 0
  | (.fastBus, [_]) => 0
  | (.fastBus, []) => 0

/-- The first row whose mask and match accept a key: the look-up of R120. -/
def lookUp (rows : List OpcodeRow) (key : Nat) : Option OpcodeRow :=
  rows.find? fun r => key &&& r.mask == r.pattern

/-- Byte number `n` of a number, byte 0 the least significant. -/
def byteAt (w n : Nat) : Byte := BitVec.ofNat 8 (w >>> (8 * n))

/-- The view and the bytes of a request of which the table numbers `nbits` bits, in whole bytes: up to
one byte is the format `RBREQ`, more is `FBREQ`. Every bit above `nbits` is 0. -/
def tableRequest (nbits w : Nat) : View × List Byte :=
  let v := w % 2 ^ nbits
  if nbits ≤ 8 then (.regBank, [byteAt v 0, byteAt v 1, byteAt v 2, byteAt v 3, byteAt v 4])
  else (.fastBus, [byteAt v 0, byteAt v 1, byteAt v 2, byteAt v 3, byteAt v 4, byteAt v 5])

/-- The operation the decoder reads from a request numbered as spec/opcode_table.json numbers it. -/
def decodeTableWord (nbits w : Nat) : Option Instr :=
  match decode (tableRequest nbits w).1 (tableRequest nbits w).2 with
  | .ok i => some i
  | .error _ => none

end Sys2Proof
end

