-- ==== Sys2Proof/Machine/Ports.lean ====
section
/-! DEFINITION. The interface signals of one tick (spec/10_state.md rule R39, spec/49_tick.md rules R330
and R332): the inputs `I_t` and the outputs `O_t`, as plain data. -/

namespace Sys2Proof.Machine

/-- `rb_op`, the register-bank operation of a tick (R39, R255): none, `read(idx)` or
`write(idx, wdata)`, with an index of `RB_IW = 5` bits. -/
inductive RbOp where
  | none
  | read (idx : BitVec 5)
  | write (idx : BitVec 5) (wdata : Word)
deriving DecidableEq, Repr, Inhabited

/-- The inputs `I_t` of one tick (R330). `samp` holds one sample vector per channel (places from `NCH`
on are not read, nor bits from `OSF` on). `fbAdr` is the number on the `FB_AW` address wires. `evClear`
is numbered like the condition lines: bits 5 to 2 are `ev_clear[5:2]`, the bits 0, 1 and 6 do not exist
(R362 (e)) and are not read. -/
structure TickInput where
  rst     : Bool
  samp    : Lanes
  trigger : Bool
  rbOp    : RbOp
  fbReq   : Bool
  fbWe    : Bool
  fbAdr   : Nat
  fbWdata : Word
  evClear : BitVec 7
deriving DecidableEq, Repr, Inhabited

/-- The outputs `O_t` of one tick (R332). `rbRdata` is `none` in a tick without a register-bank read
(R290: not defined, no one reads it). -/
structure TickOutput where
  outVec  : Lanes
  oeN     : Word
  ev      : BitVec 7
  rbRdata : Option Word
  fbAck   : Bool
  fbRdata : Word
deriving DecidableEq, Repr

end Sys2Proof.Machine
end

