-- ==== Sys2Proof/Config.lean ====
section
/-! DEFINITION. What construction fixes (spec/00_scope.md rules R3, R8, R9) and the free values the spec
leaves open (`ANY` of rule R14): uninterpreted constants, of which nothing in Lean can compute a value. -/

namespace Sys2Proof.Config

/-- The variant, chosen once at construction (R3). -/
inductive Variant where
  | high
  | low
deriving DecidableEq, Repr

/-- `OSF`: samples per tick per line (R3, R8). -/
def Variant.osf : Variant → Nat
  | .high => 8
  | .low => 1

/-- `SUBW`: subcycle bits in a timestamp (R8, R9). -/
def Variant.subw : Variant → Nat
  | .high => 3
  | .low => 0

/-- The construction parameters of R8. `FB_DW = RB_DW = 32` and `RB_IW = 5` are fixed by the spec's own
decisions; `OSF` and `SUBW` follow from the variant. -/
structure Params where
  nch      : Nat
  variant  : Variant
  tw       : Nat
  capDepth : Nat
  schDepth : Nat
  fbAw     : Nat
deriving DecidableEq, Repr

/-- `W = TW - SUBW`, the width of the cycle counter (R9). -/
def Params.w (p : Params) : Nat := p.tw - p.variant.subw

/-- The constraints of R8's table. -/
abbrev Params.Valid (p : Params) : Prop :=
  1 ≤ p.nch ∧ p.nch ≤ 32 ∧ p.variant.subw < p.tw ∧ p.tw ≤ 32 ∧
  1 ≤ p.capDepth ∧ 1 ≤ p.schDepth ∧ 8 ≤ p.fbAw

/-- The reference instance `HI32` of R9. `FB_AW` is the least that R8 allows. -/
def hi32 : Params := ⟨8, .high, 32, 128, 128, 8⟩

/-- The reference instance `LO32` of R9, the setting of the source's example scenario. -/
def lo32 : Params := ⟨8, .low, 32, 128, 128, 8⟩

/-- The reference instance `HI8` of R9. -/
def hi8 : Params := ⟨8, .high, 8, 4, 4, 8⟩

/-- The free value of a register-bank read: `ANY` of the head of an empty Capture Queue (R211, R277,
R279) and of `rb_rdata` in a reset tick (R392). A fresh draw per tick; log entry 6. -/
opaque anyRbRead : Nat → Word

/-- The free value of a fast-bus read of the head of an empty Capture Queue (R211, R305, R307). A fresh
draw per tick; log entry 6. -/
opaque anyFbRead : Nat → Word

/-- The free inputs of a tick for which the state holds none (R142: "any sequence of vectors is
admitted"; U11). A fresh draw per tick; log entry 3. -/
opaque freeInput : Nat → Sys2Proof.Machine.TickInput

end Sys2Proof.Config
end

