-- ==== Sys2Proof/Machine/State.lean ====
section
/-! DEFINITION. The complete state of the block (spec/10_state.md rule R20), its reset (rules R40 to R42,
spec/70_reset_and_hazards.md rule R391) and the reasons a tick can stop. Plain data. -/

namespace Sys2Proof.Machine

open Sys2Proof.Config

/-- A CaptureRecord (R30): the cycle count in `W` bits, the subcycle in `SUBW` bits, the levels of all
channels in `NCH` bits. -/
structure CaptureRecord where
  cycle  : Word
  sub    : Subcycle
  levels : Word
deriving DecidableEq, Repr

/-- A ScheduleRecord (R31): when to fire, and the commanded level of every channel. -/
structure ScheduleRecord where
  cycle  : Word
  sub    : Subcycle
  levels : Word
deriving DecidableEq, Repr

/-- The state `S_t`. A per-channel bit is a bitmap with bit `c` for channel `c` (R13, R14); a value of
fewer than 32 bits is held zero-extended. The last four fields are the model's own. -/
structure State where
  /-- construction parameters, the same in every state of a run (R8, R394); log entry 1 -/
  params      : Params
  /-- `level[c]`, the remembered levels (R21) -/
  level       : Word
  /-- `rise_en[c]` (R22) -/
  riseEn      : Word
  /-- `fall_en[c]` (R22) -/
  fallEn      : Word
  /-- `out_en[c]` (R23) -/
  outEn       : Word
  /-- `outvec[c]`, the output sample vectors (R24) -/
  outvec      : Lanes
  /-- the Global Cycle Counter, `W` bits (R25) -/
  counter     : Word
  /-- `arm` (R26) -/
  arm         : Bool
  /-- `force` (R26) -/
  force       : Bool
  /-- `flush_cap` (R28) -/
  flushCap    : Bool
  /-- `flush_sch` (R28) -/
  flushSch    : Bool
  /-- `sched_time`, `TW` bits (R29) -/
  schedTime   : Word
  /-- `sched_data`, `NCH` bits (R29) -/
  schedData   : Word
  /-- the Capture Queue, oldest first (R30) -/
  capq        : List CaptureRecord
  /-- the Schedule Queue, oldest first (R31) -/
  schq        : List ScheduleRecord
  /-- pending bit of capture-overflow (R33) -/
  pendOf      : Bool
  /-- pending bit of schedule-underflow (R33) -/
  pendUf      : Bool
  /-- pending bit of started (R33) -/
  pendStarted : Bool
  /-- pending bit of stopped (R33) -/
  pendStopped : Bool
  /-- last tick's capture-overflow signal (R35) -/
  prevOf      : Bool
  /-- last tick's schedule-underflow signal (R35) -/
  prevUf      : Bool
  /-- last tick's `running` (R35) -/
  prevRunning : Bool
  /-- the acknowledge register of the fast bus (R36) -/
  fbAck       : Bool
  /-- the read-data register of the fast bus (R36) -/
  fbRdata     : Word
  /-- the outputs of the tick last performed (R332); log entry 5 -/
  out         : TickOutput
  /-- the inputs of this tick and of the next ones (R330), the head this tick's; log entry 3 -/
  inputs      : List TickInput
  /-- the counter the free values are drawn with; log entry 6 -/
  draws       : Nat
deriving DecidableEq, Repr

/-- Why a tick has no successor state. -/
inductive Fault where
  /-- A register-bank operation and an accepted fast-bus request of one tick touch one resource, and one
  of the two writes it (R405). The source forbids choosing a winner, so there is no next state (R407,
  spec/93_implementation_defined.md U1; log entry 7). Raised by the shared tick of Machine/Ops.lean.
  SAFE: the hardware goes on in some way that the model says nothing about. -/
  | dualViewRace (regBank fastBus : Instr)
deriving DecidableEq, Repr

/-- Why an operation has no meaning. -/
inductive Refusal where
  /-- The operation has no meaning yet. Raised by an arm of `exec` alone, and by none of this model.
  SAFE: nothing is claimed of it. -/
  | notModelled (mnemonic : String)
deriving DecidableEq, Repr

/-- The `NCH` low bits set. -/
def channelMask (p : Params) : Word := BitVec.ofNat 32 (2 ^ p.nch - 1)

/-- What the block built with parameters `p` drives in its reset state (R391): every output vector zero,
no output driven, schedule-writable alone of the condition lines, nothing read. -/
def resetOutputs (p : Params) : TickOutput where
  outVec  := Vector.replicate 32 0#8
  oeN     := channelMask p
  ev      := 0b0000010#7
  rbRdata := none
  fbAck   := false
  fbRdata := 0#32

/-- The reset state of the block built with parameters `p` (R40 to R42). -/
def State.resetOf (p : Params) : State where
  params      := p
  level       := 0#32
  riseEn      := 0#32
  fallEn      := 0#32
  outEn       := 0#32
  outvec      := Vector.replicate 32 0#8
  counter     := 0#32
  arm         := false
  force       := false
  flushCap    := false
  flushSch    := false
  schedTime   := 0#32
  schedData   := 0#32
  capq        := []
  schq        := []
  pendOf      := false
  pendUf      := false
  pendStarted := false
  pendStopped := false
  prevOf      := false
  prevUf      := false
  prevRunning := false
  fbAck       := false
  fbRdata     := 0#32
  out         := resetOutputs p
  inputs      := []
  draws       := 0

/-- The machine right after reset, built as the reference instance `HI32` of R9 (DESIGN CHOICE, log
entry 1), with no inputs given yet. -/
def State.reset : State := State.resetOf hi32

end Sys2Proof.Machine
end

