-- ==== Sys2Proof/Machine/Operands.lean ====
section
/-! DEFINITION. Bits, words and operand assembly (spec/00_scope.md rule R13, spec/30_encoding.md rules
R102 to R109, spec/20_memory.md rules R74 and R77). -/

namespace Sys2Proof.Machine

open Sys2Proof.Config

/-- `trunc_n` and `zext` in one (R13, R77, R108): the low `n` bits of a word, the others 0. -/
def truncTo (n : Nat) (v : Word) : Word := (v.setWidth n).setWidth 32

/-- A word holds a value of width `n` (R13). -/
abbrev Fits (n : Nat) (v : Word) : Prop := truncTo n v = v

/-- The bitmap with bit `c` equal to `f c` for `c < n` and 0 from `n` on (R13, R103). -/
def bitmapOf : Nat → (Nat → Bool) → Word
  | 0, _ => 0#32
  | n + 1, f => bitmapOf n f ||| (if f n then 1#32 <<< n else 0#32)

/-- The least index below `n` at which `f` holds. -/
def leastSet (n : Nat) (f : Nat → Bool) : Option Nat := (List.range n).find? f

/-- `lsb_index(v)` (R13): the least `i` with `v[i] = 1`; 0 where there is none (R163). -/
def lsbIndex (v : Samples) : Nat := (leastSet 8 v.getLsbD).getD 0

/-- The sample vector of a channel. -/
def lane (v : Lanes) (c : Nat) : Samples := v[c]?.getD 0#8

/-- `rep_8(b)` (R13). -/
def rep8 (b : Bool) : Samples := if b then 0xFF#8 else 0x00#8

/-- The one sample of a low-resolution vector (`OSF = 1`). -/
def bit8 (b : Bool) : Samples := if b then 1#8 else 0#8

/-- The one-bit control word (R104): bit 0 is the control bit. -/
def bitWord (b : Bool) : Word := if b then 1#32 else 0#32

/-- The control bit of write data (R104, R108). -/
def controlBit (d : Word) : Bool := d.getLsbD 0

/-- The per-channel bitmap of write data (R103, R108). -/
def bitmapOperand (s : State) (d : Word) : Word := truncTo s.params.nch d

/-- The timestamp of write data (R102, R108). -/
def timestampOperand (s : State) (d : Word) : Word := truncTo s.params.tw d

/-- The timestamp word `TS` (R102): the cycle count above the `SUBW` subcycle bits; with `SUBW = 0` the
cycle count alone. -/
def timestampWord (p : Params) (cycle : Word) (sub : Subcycle) : Word :=
  match p.variant with
  | .high => truncTo p.tw ((cycle <<< 3) ||| sub.setWidth 32)
  | .low => truncTo p.tw cycle

/-- The cycle field of a timestamp word, `TS[TW-1:SUBW]` (R102, R109). -/
def timestampCycle (p : Params) (ts : Word) : Word := truncTo p.w (ts >>> p.variant.subw)

/-- The subcycle field of a timestamp word, `TS[SUBW-1:0]` (R102, R109); 0 where it has no bits. -/
def timestampSub (p : Params) (ts : Word) : Subcycle :=
  match p.variant with
  | .high => ts.setWidth 3
  | .low => 0#3

/-- The low byte of a fast-bus address, all that is decoded (R74, R101, R319). -/
def lowByte (adr : Nat) : BitVec 8 := BitVec.ofNat 8 adr

/-- Sample vectors of lines that hold the levels of `levels` through the tick. -/
def steadySamples (levels : Word) : Lanes := Vector.ofFn fun c : Fin 32 => rep8 (levels.getLsbD c.val)

/-- The inputs of a tick in which the lines hold `levels` and nothing else is asked of the block. -/
def quietInput (levels : Word) : TickInput where
  rst     := false
  samp    := steadySamples levels
  trigger := false
  rbOp    := .none
  fbReq   := false
  fbWe    := false
  fbAdr   := 0
  fbWdata := 0#32
  evClear := 0#7

/-- The operation of `rb_op` (R120, R255). -/
def rbInstrOf : RbOp → Option Instr
  | .none => none
  | .read idx => some (decodeRb (0#1 ++ idx) 0#32)
  | .write idx wdata => some (decodeRb (1#1 ++ idx) wdata)

/-- The operation of the fast-bus request at the inputs, accepted or not (R120, R302). -/
def fbInstrOf (inp : TickInput) : Option Instr :=
  if inp.fbReq then some (decodeFb (BitVec.ofBool inp.fbWe ++ lowByte inp.fbAdr) inp.fbWdata) else none

end Sys2Proof.Machine
end

