-- ==== Sys2Proof/Machine/Counter.lean ====
section
/-! DEFINITION. The Global Cycle Counter, `running` and the wrap notification (spec/45_counter_running.md
rules R225 to R234). -/

namespace Sys2Proof.Machine

open Sys2Proof.Config

/-- `running = (arm & trigger) | force` (R225), stored nowhere. -/
def running (s : State) (inp : TickInput) : Bool := (s.arm && inp.trigger) || s.force

/-- `2^W - 1`, the greatest count. -/
def counterMax (p : Params) : Word := BitVec.ofNat 32 (2 ^ p.w - 1)

/-- The counter transition (R227): the zero strobe before the increment. -/
def nextCounter (s : State) (inp : TickInput) (zero : Bool) : Word :=
  if zero then 0#32
  else if running s inp then truncTo s.params.w (s.counter + 1#32)
  else s.counter

/-- The wrap notification (R228, R360). -/
def wrapPulse (s : State) (inp : TickInput) (zero : Bool) : Bool :=
  running s inp && !zero && (s.counter == counterMax s.params)

end Sys2Proof.Machine
end

