-- ==== Sys2Proof/Machine/Sampler.lean ====
section
/-! DEFINITION. The Oversampled Line Sampler and the output serializer (spec/40_line_sampler.md). At tick
level the sampler delivers one vector per channel (R142); the shift register of R148 is the optional
refinement below the tick, and the serializer of R146 its counterpart on the output side. -/

namespace Sys2Proof.Machine

open Sys2Proof.Config

/-- `samp[c]` of a tick (R140, R142, R143): the `OSF` samples the sampler of channel `c` delivers. -/
def sampleVector (p : Params) (inp : TickInput) (c : Nat) : Samples :=
  match p.variant with
  | .high => lane inp.samp c
  | .low => lane inp.samp c &&& 1#8

/-- The sampler of one channel below the tick (R148): the shift register and the phase index. -/
structure Deserializer where
  sr    : Samples
  phase : Nat
deriving DecidableEq, Repr

/-- One oversampling step (R148): the level of the line goes to the register's bit of this phase; at the
last phase the strobe hands the register over as the vector of the tick. -/
def deserializerStep (osf : Nat) (d : Deserializer) (line : Bool) : Deserializer × Option Samples :=
  let sr := (d.sr &&& ~~~(1#8 <<< d.phase)) ||| (if line then 1#8 <<< d.phase else 0#8)
  (⟨sr, (d.phase + 1) % osf⟩, if d.phase + 1 = osf then some sr else none)

/-- The oversampling steps of the levels a line takes, phase after phase: the register and phase after
them, and the vectors handed over, oldest first. -/
def deserializerRun (osf : Nat) : Deserializer → List Bool → Deserializer × List Samples
  | d, [] => (d, [])
  | d, b :: rest =>
    let one := deserializerStep osf d b
    let more := deserializerRun osf one.1 rest
    (more.1, one.2.toList ++ more.2)

/-- The output serializer (R146): the levels of a line in the order of its phases, phase 0 first. -/
def serialize (osf : Nat) (v : Samples) : List Bool := (List.range osf).map v.getLsbD

/-- The level driven on `line_o[c]` at a phase of the tick an output belongs to, `none` while the line is
not driven (R146, R180). -/
def lineOut (o : TickOutput) (c phase : Nat) : Option Bool :=
  if o.oeN.getLsbD c then none else some ((lane o.outVec c).getLsbD phase)

end Sys2Proof.Machine
end

