-- ==== Sys2Proof/Machine/EdgeDetector.lean ====
section
/-! DEFINITION. The Edge Detector with phase encoding (spec/41_edge_detector.md rules R155 to R167). -/

namespace Sys2Proof.Machine

open Sys2Proof.Config

/-- What a detector produces in a tick (R155): `detect`, the subcycle, and the new remembered level. -/
structure Edge where
  detect : Bool
  sub    : Subcycle
  level  : Bool
deriving DecidableEq, Repr

/-- The enable gate (R156), the same in both variants. -/
def edgeActive (level rise fall : Bool) : Bool := (level && fall) || (!level && rise)

/-- The low-resolution detector (R157), of the one sample of the tick. -/
def edgeLow (sample level rise fall : Bool) : Edge where
  detect := (sample != level) && edgeActive level rise fall
  sub    := 0#3
  level  := sample

/-- The changed-bit vector (R158). -/
def changedBits (samp : Samples) (level : Bool) : Samples := samp ^^^ rep8 level

/-- The high-resolution detector (R158): the level flips whenever a sample differs, whatever the enables
are (R160); the subcycle is 0 where none differs (R163). -/
def edgeHigh (samp : Samples) (level rise fall : Bool) : Edge :=
  let changed := changedBits samp level
  let any := changed != 0#8
  { detect := any && edgeActive level rise fall
    sub    := if any then BitVec.ofNat 3 (lsbIndex changed) else 0#3
    level  := level ^^ any }

/-- The detector of the variant the block is built in (R3). -/
def edgeDetect (v : Variant) (samp : Samples) (level rise fall : Bool) : Edge :=
  match v with
  | .high => edgeHigh samp level rise fall
  | .low => edgeLow (samp.getLsbD 0) level rise fall

/-- The detector of channel `c` in a tick (R155, R162): samples of this tick, level and enables of `S_t`. -/
def channelEdge (s : State) (inp : TickInput) (c : Nat) : Edge :=
  edgeDetect s.params.variant (sampleVector s.params inp c)
    (s.level.getLsbD c) (s.riseEn.getLsbD c) (s.fallEn.getLsbD c)

/-- `level'`, the new remembered levels of all channels. -/
def newLevels (s : State) (inp : TickInput) : Word :=
  bitmapOf s.params.nch fun c => (channelEdge s inp c).level

end Sys2Proof.Machine
end

