-- ==== Sys2Proof/Machine/PulseScheduler.lean ====
section
/-! DEFINITION. The Pulse Scheduler (spec/42_pulse_scheduler.md rules R175 to R185). -/

namespace Sys2Proof.Machine

open Sys2Proof.Config

/-- The edge mask (R179): the bits of the phases from the subcycle to 7. -/
def edgeMask (k : Subcycle) : Samples := 0xFF#8 <<< k.toNat

/-- The low-resolution scheduler (R177): latch the commanded level on a fire. -/
def pulseLow (vec : Samples) (fire cmdLevel : Bool) : Samples := if fire then bit8 cmdLevel else vec

/-- The high-resolution scheduler (R178): hold the steady level, and on a fire that commands the other
level put the edge at the commanded phase. -/
def pulseHigh (vec : Samples) (fire cmdLevel : Bool) (cmdSub : Subcycle) : Samples :=
  let last := vec.getLsbD 7
  if fire && (cmdLevel != last) then rep8 last ^^^ edgeMask cmdSub else rep8 last

/-- The scheduler of the variant the block is built in (R3). -/
def pulse (v : Variant) (vec : Samples) (fire cmdLevel : Bool) (cmdSub : Subcycle) : Samples :=
  match v with
  | .high => pulseHigh vec fire cmdLevel cmdSub
  | .low => pulseLow vec fire cmdLevel

/-- `oe_n` (R180): the complement of `out_en` on the `NCH` channels. -/
def outputDisable (s : State) : Word := ~~~s.outEn &&& channelMask s.params

end Sys2Proof.Machine
end

