-- ==== Sys2Proof/Machine/Queues.lean ====
section
/-! DEFINITION. The two bounded queues (spec/44_queues.md rules R205 to R221). -/

namespace Sys2Proof.Machine

/-- `readable(q)` (R206). -/
def readable {α : Type} (q : List α) : Bool := !q.isEmpty

/-- `writable(q)` (R206), with the capacity of the queue. -/
def writable {α : Type} (depth : Nat) (q : List α) : Bool := decide (q.length < depth)

/-- The queue step of a tick (R210): both tests are made on the queue at the start of the tick. `push` is
the record of a push request, if there is one. -/
def queueStep {α : Type} (depth : Nat) (q : List α) (push : Option α) (pop : Bool) : List α :=
  (if pop && readable q then q.tail else q) ++ (if writable depth q then push.toList else [])

/-- A push request against a full queue loses its record (R208, R210). -/
def queueDropped {α : Type} (depth : Nat) (q : List α) (push : Option α) : Bool :=
  push.isSome && !writable depth q

end Sys2Proof.Machine
end

