-- ==== Sys2Proof/Machine/Engine.lean ====
section
/-! DEFINITION. Selection and capture (spec/43_tiebreak_capture.md), schedule push, match and fire
(spec/46_schedule_fire.md): the engine's parts that join its leaves. -/

namespace Sys2Proof.Machine

open Sys2Proof.Config

/-- `sel` (R191): the lowest channel that detects, if one does. -/
def selected (s : State) (inp : TickInput) : Option Nat :=
  leastSet s.params.nch fun c => (channelEdge s inp c).detect

/-- The record of a capture (R193): the count of `S_t`, the subcycle of the selected channel, the new
levels of all channels. -/
def captureRecord (s : State) (inp : TickInput) (sel : Nat) : CaptureRecord where
  cycle  := s.counter
  sub    := (channelEdge s inp sel).sub
  levels := newLevels s inp

/-- `cap_push` with its record (R192): a detect in a running tick. -/
def capturePush (s : State) (inp : TickInput) : Option CaptureRecord :=
  if running s inp then (selected s inp).map (captureRecord s inp) else none

/-- The capture-overflow condition signal `of_cond` (R212, R356). -/
def overflowSignal (s : State) (inp : TickInput) : Bool :=
  queueDropped s.params.capDepth s.capq (capturePush s inp)

/-- `capq'` (R210, R212 to R214); `strobe` says that a view pops in this tick. -/
def nextCapq (s : State) (inp : TickInput) (strobe : Bool) : List CaptureRecord :=
  queueStep s.params.capDepth s.capq (capturePush s inp) (strobe || s.flushCap)

/-- `fire` (R241): the head of the Schedule Queue names the count of this tick. -/
def fire (s : State) : Bool :=
  match s.schq with
  | [] => false
  | head :: _ => head.cycle == s.counter

/-- The schedule-underflow condition signal `uf_cond` (R245, R361). -/
def underflowSignal (s : State) : Bool := s.flushSch && !fire s

/-- The record a push takes from the schedule-input registers (R109, R246). -/
def scheduleRecord (s : State) : ScheduleRecord where
  cycle  := timestampCycle s.params s.schedTime
  sub    := timestampSub s.params s.schedTime
  levels := s.schedData

/-- `schq'` (R210, R216, R217, R244); `strobe` says that a view pushes in this tick. -/
def nextSchq (s : State) (strobe : Bool) : List ScheduleRecord :=
  queueStep s.params.schDepth s.schq (if strobe then some (scheduleRecord s) else none)
    (fire s || s.flushSch)

/-- `cmd_level[c]` (R176): the head's level of the channel; false where there is no head, and then it is
not used. -/
def commandLevel (s : State) (c : Nat) : Bool :=
  match s.schq with
  | [] => false
  | head :: _ => head.levels.getLsbD c

/-- `cmd_sub` (R176). -/
def commandSub (s : State) : Subcycle :=
  match s.schq with
  | [] => 0#3
  | head :: _ => head.sub

/-- `outvec'` (R177, R178, R243); the places from `NCH` on belong to no channel and stay 0. -/
def nextOutvec (s : State) : Lanes :=
  Vector.ofFn fun c : Fin 32 =>
    if c.val < s.params.nch then
      pulse s.params.variant (lane s.outvec c.val) (fire s) (commandLevel s c.val) (commandSub s)
    else 0#8

end Sys2Proof.Machine
end

