-- ==== Sys2Proof/Machine/Effect.lean ====
section
/-! DEFINITION. What a host operation contributes to the tick it is performed in (spec/20_memory.md rules
R72, R73, spec/49_tick.md rule R331 parts 1, 10 and 11): strobes, stored values, and the value of a read,
all computed from `S_t`. -/

namespace Sys2Proof.Machine

/-- The contribution of one operation. A storage field is `some v` where the operation stores `v`. -/
structure HostEffect where
  /-- the zero strobe of the counter (R229) -/
  zero      : Bool := false
  /-- the pop strobe of the Capture Queue (R213) -/
  capNext   : Bool := false
  /-- the push strobe of the Schedule Queue (R216) -/
  schedNext : Bool := false
  arm       : Option Bool := none
  force     : Option Bool := none
  flushCap  : Option Bool := none
  flushSch  : Option Bool := none
  riseEn    : Option Word := none
  fallEn    : Option Word := none
  outEn     : Option Word := none
  schedTime : Option Word := none
  schedData : Option Word := none
  /-- the value of a read, of the full data width -/
  rdata     : Option Word := none
deriving DecidableEq, Repr

/-- The contribution of no operation (R290, R318), and of an operation that is ignored (R127). -/
def noEffect : HostEffect := {}

/-- The contribution of a read: the value and nothing else (R72, R78). -/
def readEffect (value : Word) : HostEffect := { rdata := some value }

/-- Both views' contributions in one tick (R81). Outside a hazard tick no field is given by both, so the
order of the two does not matter. -/
def HostEffect.both (a b : HostEffect) : HostEffect where
  zero      := a.zero || b.zero
  capNext   := a.capNext || b.capNext
  schedNext := a.schedNext || b.schedNext
  arm       := a.arm.or b.arm
  force     := a.force.or b.force
  flushCap  := a.flushCap.or b.flushCap
  flushSch  := a.flushSch.or b.flushSch
  riseEn    := a.riseEn.or b.riseEn
  fallEn    := a.fallEn.or b.fallEn
  outEn     := a.outEn.or b.outEn
  schedTime := a.schedTime.or b.schedTime
  schedData := a.schedData.or b.schedData
  rdata     := a.rdata.or b.rdata

/-- `CAP_TIME` of `S_t` (R277, R305): the head's timestamp word, or `ANY` of `TW` bits. -/
def captureTimeValue (s : State) (any : Word) : Word :=
  match s.capq with
  | [] => truncTo s.params.tw any
  | head :: _ => timestampWord s.params head.cycle head.sub

/-- `CAP_DATA` of `S_t` (R279, R307): the head's bitmap, or `ANY` of `NCH` bits. -/
def captureDataValue (s : State) (any : Word) : Word :=
  match s.capq with
  | [] => truncTo s.params.nch any
  | head :: _ => head.levels

end Sys2Proof.Machine
end

