-- ==== Sys2Proof/Machine/Effects.lean ====
section
/-! DEFINITION. What every host operation contributes to its tick, one definition per row of
spec/opcode_table.json (spec/47_host_regbank.md, spec/48_host_fastbus.md). A fast-bus contribution is that
of the tick in which the request is accepted (R300). -/

namespace Sys2Proof.Machine

/-- `RB.WR.COUNTER_ZERO` (R257): the zero strobe, whatever the data (R106). -/
def effectRbWrCounterZero (_wdata : Word) (_s : State) : HostEffect := { zero := true }

/-- `RB.RD.COUNTER_ZERO` (R258): 0; the strobe does not fire on a read. -/
def effectRbRdCounterZero (_s : State) : HostEffect := readEffect 0#32

/-- `RB.WR.ARM` (R259): `arm' = wdata[0]`. -/
def effectRbWrArm (wdata : Word) (_s : State) : HostEffect := { arm := some (controlBit wdata) }

/-- `RB.RD.ARM` (R260): the stored bit, not `running`. -/
def effectRbRdArm (s : State) : HostEffect := readEffect (bitWord s.arm)

/-- `RB.WR.FORCE` (R261): `force' = wdata[0]`. -/
def effectRbWrForce (wdata : Word) (_s : State) : HostEffect := { force := some (controlBit wdata) }

/-- `RB.RD.FORCE` (R262): the stored bit. -/
def effectRbRdForce (s : State) : HostEffect := readEffect (bitWord s.force)

/-- `RB.WR.FLUSH_CAPTURE` (R263): `flush_cap' = wdata[0]`; the pops start in the next tick. -/
def effectRbWrFlushCapture (wdata : Word) (_s : State) : HostEffect := { flushCap := some (controlBit wdata) }

/-- `RB.RD.FLUSH_CAPTURE` (R264): the stored bit. -/
def effectRbRdFlushCapture (s : State) : HostEffect := readEffect (bitWord s.flushCap)

/-- `RB.WR.FLUSH_SCHEDULE` (R265): `flush_sch' = wdata[0]`; the pops start in the next tick. -/
def effectRbWrFlushSchedule (wdata : Word) (_s : State) : HostEffect := { flushSch := some (controlBit wdata) }

/-- `RB.RD.FLUSH_SCHEDULE` (R266): the stored bit. -/
def effectRbRdFlushSchedule (s : State) : HostEffect := readEffect (bitWord s.flushSch)

/-- `RB.WR.LEVEL` (R268): ignored; the detectors alone write `level`. -/
def effectRbWrLevel (_wdata : Word) (_s : State) : HostEffect := noEffect

/-- `RB.RD.LEVEL` (R267): the remembered levels of `S_t`. -/
def effectRbRdLevel (s : State) : HostEffect := readEffect s.level

/-- `RB.WR.RISING_EN` (R269): `rise_en' = wdata[NCH-1:0]`. -/
def effectRbWrRisingEn (wdata : Word) (s : State) : HostEffect := { riseEn := some (bitmapOperand s wdata) }

/-- `RB.RD.RISING_EN` (R270): the stored bitmap. -/
def effectRbRdRisingEn (s : State) : HostEffect := readEffect s.riseEn

/-- `RB.WR.FALLING_EN` (R271): `fall_en' = wdata[NCH-1:0]`. -/
def effectRbWrFallingEn (wdata : Word) (s : State) : HostEffect := { fallEn := some (bitmapOperand s wdata) }

/-- `RB.RD.FALLING_EN` (R272): the stored bitmap. -/
def effectRbRdFallingEn (s : State) : HostEffect := readEffect s.fallEn

/-- `RB.WR.OUTPUT_EN` (R273): `out_en' = wdata[NCH-1:0]`; `outvec` is not changed. -/
def effectRbWrOutputEn (wdata : Word) (s : State) : HostEffect := { outEn := some (bitmapOperand s wdata) }

/-- `RB.RD.OUTPUT_EN` (R274): the stored bitmap. -/
def effectRbRdOutputEn (s : State) : HostEffect := readEffect s.outEn

/-- `RB.WR.COUNTER` (R276): ignored; the counter can only be zeroed. -/
def effectRbWrCounter (_wdata : Word) (_s : State) : HostEffect := noEffect

/-- `RB.RD.COUNTER` (R275): the count of `S_t` in ticks, not shifted (R105). -/
def effectRbRdCounter (s : State) : HostEffect := readEffect s.counter

/-- `RB.WR.CAP_TIME` (R278): ignored. -/
def effectRbWrCapTime (_wdata : Word) (_s : State) : HostEffect := noEffect

/-- `RB.RD.CAP_TIME` (R277): the head's timestamp word, or a free value of `TW` bits. -/
def effectRbRdCapTime (s : State) : HostEffect := readEffect (captureTimeValue s (Sys2Proof.Config.anyRbRead s.draws))

/-- `RB.WR.CAP_DATA` (R280): ignored. -/
def effectRbWrCapData (_wdata : Word) (_s : State) : HostEffect := noEffect

/-- `RB.RD.CAP_DATA` (R279): the head's bitmap, or a free value of `NCH` bits. -/
def effectRbRdCapData (s : State) : HostEffect := readEffect (captureDataValue s (Sys2Proof.Config.anyRbRead s.draws))

/-- `RB.WR.CAP_NEXT` (R281): the pop strobe, whatever the data (R106). -/
def effectRbWrCapNext (_wdata : Word) (_s : State) : HostEffect := { capNext := true }

/-- `RB.RD.CAP_NEXT` (R282): 0; no pop on a read. -/
def effectRbRdCapNext (_s : State) : HostEffect := readEffect 0#32

/-- `RB.WR.SCHED_TIME` (R283): `sched_time' = wdata[TW-1:0]`; nothing is pushed. -/
def effectRbWrSchedTime (wdata : Word) (s : State) : HostEffect := { schedTime := some (timestampOperand s wdata) }

/-- `RB.RD.SCHED_TIME` (R284): the last value written through either view. -/
def effectRbRdSchedTime (s : State) : HostEffect := readEffect s.schedTime

/-- `RB.WR.SCHED_DATA` (R285): `sched_data' = wdata[NCH-1:0]`. -/
def effectRbWrSchedData (wdata : Word) (s : State) : HostEffect := { schedData := some (bitmapOperand s wdata) }

/-- `RB.RD.SCHED_DATA` (R286): the last value written through either view. -/
def effectRbRdSchedData (s : State) : HostEffect := readEffect s.schedData

/-- `RB.WR.SCHED_NEXT` (R287): the push strobe, whatever the data (R106). -/
def effectRbWrSchedNext (_wdata : Word) (_s : State) : HostEffect := { schedNext := true }

/-- `RB.RD.SCHED_NEXT` (R288): 0; no push on a read. -/
def effectRbRdSchedNext (_s : State) : HostEffect := readEffect 0#32

/-- `RB.RD.RESERVED` (R289): 0. -/
def effectRbRdReserved (_idx : BitVec 5) (_s : State) : HostEffect := readEffect 0#32

/-- `RB.WR.RESERVED` (R289): nothing. -/
def effectRbWrReserved (_idx : BitVec 5) (_wdata : Word) (_s : State) : HostEffect := noEffect

/-- `FB.WR.COUNTER` (R304): ignored and acknowledged. -/
def effectFbWrCounter (_wdata : Word) (_s : State) : HostEffect := noEffect

/-- `FB.RD.COUNTER` (R303): the count of `S_t` in ticks, not shifted (R105). -/
def effectFbRdCounter (s : State) : HostEffect := readEffect s.counter

/-- `FB.WR.CAP_TIME` (R306): ignored and acknowledged. -/
def effectFbWrCapTime (_wdata : Word) (_s : State) : HostEffect := noEffect

/-- `FB.RD.CAP_TIME` (R305): the head's timestamp word, or a free value of `TW` bits. -/
def effectFbRdCapTime (s : State) : HostEffect := readEffect (captureTimeValue s (Sys2Proof.Config.anyFbRead s.draws))

/-- `FB.WR.CAP_DATA` (R308): ignored and acknowledged. -/
def effectFbWrCapData (_wdata : Word) (_s : State) : HostEffect := noEffect

/-- `FB.RD.CAP_DATA` (R307): the head's bitmap, or a free value of `NCH` bits. -/
def effectFbRdCapData (s : State) : HostEffect := readEffect (captureDataValue s (Sys2Proof.Config.anyFbRead s.draws))

/-- `FB.WR.CAP_NEXT` (R309): the pop strobe of the acceptance tick, whatever the data. -/
def effectFbWrCapNext (_wdata : Word) (_s : State) : HostEffect := { capNext := true }

/-- `FB.RD.CAP_NEXT` (R310): 0; no pop on a read. -/
def effectFbRdCapNext (_s : State) : HostEffect := readEffect 0#32

/-- `FB.WR.SCHED_TIME` (R311): `sched_time' = fb_wdata[TW-1:0]`, the one shared register (R29). -/
def effectFbWrSchedTime (wdata : Word) (s : State) : HostEffect := { schedTime := some (timestampOperand s wdata) }

/-- `FB.RD.SCHED_TIME` (R312): the last value written through either view. -/
def effectFbRdSchedTime (s : State) : HostEffect := readEffect s.schedTime

/-- `FB.WR.SCHED_DATA` (R313): `sched_data' = fb_wdata[NCH-1:0]`. -/
def effectFbWrSchedData (wdata : Word) (s : State) : HostEffect := { schedData := some (bitmapOperand s wdata) }

/-- `FB.RD.SCHED_DATA` (R314): the last value written through either view. -/
def effectFbRdSchedData (s : State) : HostEffect := readEffect s.schedData

/-- `FB.WR.SCHED_NEXT` (R315): the push strobe of the acceptance tick, whatever the data. -/
def effectFbWrSchedNext (_wdata : Word) (_s : State) : HostEffect := { schedNext := true }

/-- `FB.RD.SCHED_NEXT` (R316): 0; no push on a read. -/
def effectFbRdSchedNext (_s : State) : HostEffect := readEffect 0#32

/-- `FB.RD.RESERVED` (R317): 0, acknowledged like any other. -/
def effectFbRdReserved (_adr : BitVec 8) (_s : State) : HostEffect := readEffect 0#32

/-- `FB.WR.RESERVED` (R317): nothing, acknowledged like any other. -/
def effectFbWrReserved (_adr : BitVec 8) (_wdata : Word) (_s : State) : HostEffect := noEffect

/-- The contribution of an operation presented in a tick. -/
def hostEffect (i : Instr) (s : State) : HostEffect :=
  match i with
  | .rbWrCounterZero wdata => effectRbWrCounterZero wdata s
  | .rbRdCounterZero => effectRbRdCounterZero s
  | .rbWrArm wdata => effectRbWrArm wdata s
  | .rbRdArm => effectRbRdArm s
  | .rbWrForce wdata => effectRbWrForce wdata s
  | .rbRdForce => effectRbRdForce s
  | .rbWrFlushCapture wdata => effectRbWrFlushCapture wdata s
  | .rbRdFlushCapture => effectRbRdFlushCapture s
  | .rbWrFlushSchedule wdata => effectRbWrFlushSchedule wdata s
  | .rbRdFlushSchedule => effectRbRdFlushSchedule s
  | .rbWrLevel wdata => effectRbWrLevel wdata s
  | .rbRdLevel => effectRbRdLevel s
  | .rbWrRisingEn wdata => effectRbWrRisingEn wdata s
  | .rbRdRisingEn => effectRbRdRisingEn s
  | .rbWrFallingEn wdata => effectRbWrFallingEn wdata s
  | .rbRdFallingEn => effectRbRdFallingEn s
  | .rbWrOutputEn wdata => effectRbWrOutputEn wdata s
  | .rbRdOutputEn => effectRbRdOutputEn s
  | .rbWrCounter wdata => effectRbWrCounter wdata s
  | .rbRdCounter => effectRbRdCounter s
  | .rbWrCapTime wdata => effectRbWrCapTime wdata s
  | .rbRdCapTime => effectRbRdCapTime s
  | .rbWrCapData wdata => effectRbWrCapData wdata s
  | .rbRdCapData => effectRbRdCapData s
  | .rbWrCapNext wdata => effectRbWrCapNext wdata s
  | .rbRdCapNext => effectRbRdCapNext s
  | .rbWrSchedTime wdata => effectRbWrSchedTime wdata s
  | .rbRdSchedTime => effectRbRdSchedTime s
  | .rbWrSchedData wdata => effectRbWrSchedData wdata s
  | .rbRdSchedData => effectRbRdSchedData s
  | .rbWrSchedNext wdata => effectRbWrSchedNext wdata s
  | .rbRdSchedNext => effectRbRdSchedNext s
  | .rbRdReserved idx => effectRbRdReserved idx s
  | .rbWrReserved idx wdata => effectRbWrReserved idx wdata s
  | .fbWrCounter wdata => effectFbWrCounter wdata s
  | .fbRdCounter => effectFbRdCounter s
  | .fbWrCapTime wdata => effectFbWrCapTime wdata s
  | .fbRdCapTime => effectFbRdCapTime s
  | .fbWrCapData wdata => effectFbWrCapData wdata s
  | .fbRdCapData => effectFbRdCapData s
  | .fbWrCapNext wdata => effectFbWrCapNext wdata s
  | .fbRdCapNext => effectFbRdCapNext s
  | .fbWrSchedTime wdata => effectFbWrSchedTime wdata s
  | .fbRdSchedTime => effectFbRdSchedTime s
  | .fbWrSchedData wdata => effectFbWrSchedData wdata s
  | .fbRdSchedData => effectFbRdSchedData s
  | .fbWrSchedNext wdata => effectFbWrSchedNext wdata s
  | .fbRdSchedNext => effectFbRdSchedNext s
  | .fbRdReserved adr => effectFbRdReserved adr s
  | .fbWrReserved adr wdata => effectFbWrReserved adr wdata s

end Sys2Proof.Machine
end

