-- ==== Sys2Proof/Machine/Flags.lean ====
section
/-! DEFINITION. The Event/Condition Set (spec/60_exceptions.md rules R350 to R368): the latch of a process
condition and the seven condition lines. The block takes no exception and returns from none (R364, R365);
this latch is what it does instead. -/

namespace Sys2Proof.Machine

/-- The latch of a process condition (R357): set on a rise of the signal, cleared by the collaborator, set
before clear. -/
def latch (pend clear signal prev : Bool) : Bool := (pend && !clear) || (signal && !prev)

/-- `pend_of'` (R356, R357). -/
def nextPendOf (s : State) (inp : TickInput) : Bool :=
  latch s.pendOf (inp.evClear.getLsbD 2) (overflowSignal s inp) s.prevOf

/-- `pend_uf'` (R357, R361). -/
def nextPendUf (s : State) (inp : TickInput) : Bool :=
  latch s.pendUf (inp.evClear.getLsbD 3) (underflowSignal s) s.prevUf

/-- `pend_started'` (R359). -/
def nextPendStarted (s : State) (inp : TickInput) : Bool :=
  latch s.pendStarted (inp.evClear.getLsbD 4) (running s inp) s.prevRunning

/-- `pend_stopped'` (R359): the signal is `!running`, its last value `!prev_running`. -/
def nextPendStopped (s : State) (inp : TickInput) : Bool :=
  latch s.pendStopped (inp.evClear.getLsbD 5) (!running s inp) (!s.prevRunning)

/-- `ev[6:0]` (R332, R350): counter-wrap, stopped, started, schedule-underflow, capture-overflow,
schedule-writable, capture-readable, line 6 leftmost. -/
def conditionLines (s : State) (inp : TickInput) (zero : Bool) : BitVec 7 :=
  BitVec.ofBool (wrapPulse s inp zero) ++ BitVec.ofBool s.pendStopped ++ BitVec.ofBool s.pendStarted ++
    BitVec.ofBool s.pendUf ++ BitVec.ofBool s.pendOf ++
    BitVec.ofBool (writable s.params.schDepth s.schq) ++ BitVec.ofBool (readable s.capq)

end Sys2Proof.Machine
end

