-- ==== Sys2Proof/Machine/Hazard.lean ====
section
/-! DEFINITION. The dual-view hazard (spec/70_reset_and_hazards.md rules R405 to R408): the resources
the two views share, and what each operation reads and writes of them. -/

namespace Sys2Proof.Machine

/-- The shared resources (R405). -/
inductive Resource where
  | counter
  | capq
  | schedTime
  | schedData
  | schq
deriving DecidableEq, Repr

/-- The resources an operation reads (R405's table). -/
def resourceReads : Instr → List Resource
  | .rbWrCounterZero _ => []
  | .rbRdCounterZero => []
  | .rbWrArm _ => []
  | .rbRdArm => []
  | .rbWrForce _ => []
  | .rbRdForce => []
  | .rbWrFlushCapture _ => []
  | .rbRdFlushCapture => []
  | .rbWrFlushSchedule _ => []
  | .rbRdFlushSchedule => []
  | .rbWrLevel _ => []
  | .rbRdLevel => []
  | .rbWrRisingEn _ => []
  | .rbRdRisingEn => []
  | .rbWrFallingEn _ => []
  | .rbRdFallingEn => []
  | .rbWrOutputEn _ => []
  | .rbRdOutputEn => []
  | .rbWrCounter _ => []
  | .rbRdCounter => [.counter]
  | .rbWrCapTime _ => []
  | .rbRdCapTime => [.capq]
  | .rbWrCapData _ => []
  | .rbRdCapData => [.capq]
  | .rbWrCapNext _ => []
  | .rbRdCapNext => []
  | .rbWrSchedTime _ => []
  | .rbRdSchedTime => [.schedTime]
  | .rbWrSchedData _ => []
  | .rbRdSchedData => [.schedData]
  | .rbWrSchedNext _ => [.schedTime, .schedData]
  | .rbRdSchedNext => []
  | .rbRdReserved _ => []
  | .rbWrReserved _ _ => []
  | .fbWrCounter _ => []
  | .fbRdCounter => [.counter]
  | .fbWrCapTime _ => []
  | .fbRdCapTime => [.capq]
  | .fbWrCapData _ => []
  | .fbRdCapData => [.capq]
  | .fbWrCapNext _ => []
  | .fbRdCapNext => []
  | .fbWrSchedTime _ => []
  | .fbRdSchedTime => [.schedTime]
  | .fbWrSchedData _ => []
  | .fbRdSchedData => [.schedData]
  | .fbWrSchedNext _ => [.schedTime, .schedData]
  | .fbRdSchedNext => []
  | .fbRdReserved _ => []
  | .fbWrReserved _ _ => []

/-- The resources an operation writes (R405's table). -/
def resourceWrites : Instr → List Resource
  | .rbWrCounterZero _ => [.counter]
  | .rbRdCounterZero => []
  | .rbWrArm _ => []
  | .rbRdArm => []
  | .rbWrForce _ => []
  | .rbRdForce => []
  | .rbWrFlushCapture _ => []
  | .rbRdFlushCapture => []
  | .rbWrFlushSchedule _ => []
  | .rbRdFlushSchedule => []
  | .rbWrLevel _ => []
  | .rbRdLevel => []
  | .rbWrRisingEn _ => []
  | .rbRdRisingEn => []
  | .rbWrFallingEn _ => []
  | .rbRdFallingEn => []
  | .rbWrOutputEn _ => []
  | .rbRdOutputEn => []
  | .rbWrCounter _ => []
  | .rbRdCounter => []
  | .rbWrCapTime _ => []
  | .rbRdCapTime => []
  | .rbWrCapData _ => []
  | .rbRdCapData => []
  | .rbWrCapNext _ => [.capq]
  | .rbRdCapNext => []
  | .rbWrSchedTime _ => [.schedTime]
  | .rbRdSchedTime => []
  | .rbWrSchedData _ => [.schedData]
  | .rbRdSchedData => []
  | .rbWrSchedNext _ => [.schq]
  | .rbRdSchedNext => []
  | .rbRdReserved _ => []
  | .rbWrReserved _ _ => []
  | .fbWrCounter _ => []
  | .fbRdCounter => []
  | .fbWrCapTime _ => []
  | .fbRdCapTime => []
  | .fbWrCapData _ => []
  | .fbRdCapData => []
  | .fbWrCapNext _ => [.capq]
  | .fbRdCapNext => []
  | .fbWrSchedTime _ => [.schedTime]
  | .fbRdSchedTime => []
  | .fbWrSchedData _ => [.schedData]
  | .fbRdSchedData => []
  | .fbWrSchedNext _ => [.schq]
  | .fbRdSchedNext => []
  | .fbRdReserved _ => []
  | .fbWrReserved _ _ => []

/-- Some resource stands in both lists. -/
def meets (a b : List Resource) : Bool := a.any fun r => b.contains r

/-- Two operations of one tick, one from each view, collide (R405): what one writes, the other reads or
writes. -/
def collide (i j : Instr) : Bool :=
  meets (resourceWrites i) (resourceReads j ++ resourceWrites j) ||
  meets (resourceWrites j) (resourceReads i ++ resourceWrites i)

end Sys2Proof.Machine
end

