-- ==== Sys2Proof/Machine/Ops.lean ====
section
/-! DEFINITION. The transition of one tick (spec/49_tick.md rules R330 to R336), the one operation every
meaning is a line over: reset first (spec/70_reset_and_hazards.md R390, R392), then acceptance of the
fast-bus request (R300), then the hazard (R405, R407), then the whole of R331 at once. -/

namespace Sys2Proof.Machine

/-- `I_t`: the head of the inputs the state holds, a free value where it holds none (log entry 3). -/
def currentInput (s : State) : TickInput :=
  match s.inputs with
  | [] => Sys2Proof.Config.freeInput s.draws
  | inp :: _ => inp

/-- A host operation of a tick with its contribution. -/
structure Presented where
  instr  : Instr
  effect : HostEffect
deriving DecidableEq, Repr

/-- An operation with the contribution its row gives it. -/
def present (i : Instr) (s : State) : Presented := ⟨i, hostEffect i s⟩

/-- The register-bank operation of this tick (R255). -/
def regBankPort (s : State) : Option Presented :=
  (rbInstrOf (currentInput s).rbOp).map fun i => present i s

/-- The fast-bus request of this tick, accepted or not (R300). -/
def fastBusPort (s : State) : Option Presented :=
  (fbInstrOf (currentInput s)).map fun i => present i s

/-- `accept` (R300): no request is accepted in an acknowledge tick (R302). -/
def accepted (s : State) (fb : Option Presented) : Option Presented :=
  if s.fbAck then none else fb

/-- The contribution of a port, none where nothing is presented (R290, R318). -/
def portEffect (op : Option Presented) : HostEffect :=
  match op with
  | none => noEffect
  | some o => o.effect

/-- The outputs of a tick (R332). `rbRdata` is the value of the register-bank read, if there is one. -/
def tickOutputs (s : State) (inp : TickInput) (zero : Bool) (rbRdata : Option Word) : TickOutput where
  outVec  := nextOutvec s
  oeN     := outputDisable s
  ev      := conditionLines s inp zero
  rbRdata := rbRdata
  fbAck   := s.fbAck
  fbRdata := s.fbRdata

/-- `S_{t+1}` of a tick without reset and without hazard (R331 parts 2 to 11), from the contributions of
both views. `rb` and `fb` are their contributions, `accept` says that a fast-bus request is accepted. -/
def engineTick (s : State) (rb fb : HostEffect) (accept : Bool) : State :=
  let inp := currentInput s
  let host := rb.both fb
  { params      := s.params
    level       := newLevels s inp
    riseEn      := host.riseEn.getD s.riseEn
    fallEn      := host.fallEn.getD s.fallEn
    outEn       := host.outEn.getD s.outEn
    outvec      := nextOutvec s
    counter     := nextCounter s inp host.zero
    arm         := host.arm.getD s.arm
    force       := host.force.getD s.force
    flushCap    := host.flushCap.getD s.flushCap
    flushSch    := host.flushSch.getD s.flushSch
    schedTime   := host.schedTime.getD s.schedTime
    schedData   := host.schedData.getD s.schedData
    capq        := nextCapq s inp host.capNext
    schq        := nextSchq s host.schedNext
    pendOf      := nextPendOf s inp
    pendUf      := nextPendUf s inp
    pendStarted := nextPendStarted s inp
    pendStopped := nextPendStopped s inp
    prevOf      := overflowSignal s inp
    prevUf      := underflowSignal s
    prevRunning := running s inp
    fbAck       := accept
    fbRdata     := fb.rdata.getD 0#32
    out         := tickOutputs s inp host.zero rb.rdata
    inputs      := s.inputs.tail
    draws       := s.draws + 1 }

/-- The outputs of a tick with `rst = 1` (R392): the lines and the fast-bus registers show `S_t`, the
output vectors their reset value; `rb_rdata` is `ANY` where an operation is presented. The wrap line
follows the formula of R332 with no strobe performed (log entry 8). -/
def resetTickOutputs (s : State) (opPresented : Bool) : TickOutput where
  outVec  := Vector.replicate 32 0#8
  oeN     := outputDisable s
  ev      := conditionLines s (currentInput s) false
  rbRdata := if opPresented then some (Sys2Proof.Config.anyRbRead s.draws) else none
  fbAck   := s.fbAck
  fbRdata := s.fbRdata

/-- `S_{t+1}` of a tick with `rst = 1` (R390): the reset state of the block as it was built. Nothing of
the tick is performed. The model's own fields go on. -/
def resetTick (s : State) (opPresented : Bool) : State :=
  { State.resetOf s.params with
    out    := resetTickOutputs s opPresented
    inputs := s.inputs.tail
    draws  := s.draws + 1 }

/-- One tick with what each view presents. -/
def runTick (rb fb : Option Presented) (s : State) : Host.Outcome State Fault Refusal :=
  if (currentInput s).rst then .next (resetTick s rb.isSome)
  else
    match rb, accepted s fb with
    | some a, some b =>
      if collide a.instr b.instr then .fault (.dualViewRace a.instr b.instr)
      else .next (engineTick s a.effect b.effect true)
    | some a, none => .next (engineTick s a.effect noEffect false)
    | none, some b => .next (engineTick s noEffect b.effect true)
    | none, none => .next (engineTick s noEffect noEffect false)

/-- The tick in which the register-bank view presents an operation, and the fast-bus view what the inputs
say. -/
def regBankTick (i : Instr) (e : HostEffect) (s : State) : Host.Outcome State Fault Refusal :=
  runTick (some ⟨i, e⟩) (fastBusPort s) s

/-- The tick in which the fast-bus view presents a request, and the register-bank view what the inputs
say. In an acknowledge tick the request is turned away (R302). -/
def fastBusTick (i : Instr) (e : HostEffect) (s : State) : Host.Outcome State Fault Refusal :=
  runTick (regBankPort s) (some ⟨i, e⟩) s

/-- The tick in which neither view presents an operation (R290, R318). -/
def idleTick (s : State) : Host.Outcome State Fault Refusal := runTick none none s

/-- The operation a tick is the meaning of: the register-bank operation, else the fast-bus request. Where
both are present either gives the same tick (log entry 10). -/
def presentedInstr (s : State) : Option Instr :=
  (rbInstrOf (currentInput s).rbOp).or (fbInstrOf (currentInput s))

/-- The register-bank operation of a request numbered as the opcode table numbers it: six key bits, the
data word after the key's byte, every bit above `nbits` 0. No operation where a bit above the key is set. -/
def tableRbOp (v : Nat) : RbOp :=
  if v % 256 < 64 then
    if v % 64 < 32 then .read (BitVec.ofNat 5 v) else .write (BitVec.ofNat 5 v) (BitVec.ofNat 32 (v / 256))
  else .none

/-- The inputs of a tick that presents the request `w` of `nbits` table bits, over the other inputs of
`inp`: no reset, and nothing on the other view. -/
def fetchInput (inp : TickInput) (nbits w : Nat) : TickInput :=
  let v := w % 2 ^ nbits
  if nbits ≤ 8 then { inp with rst := false, rbOp := tableRbOp v, fbReq := false }
  else
    { inp with
      rst     := false
      rbOp    := .none
      fbReq   := decide (v % 65536 < 512)
      fbWe    := decide (256 ≤ v % 512)
      fbAdr   := v % 256
      fbWdata := BitVec.ofNat 32 (v / 65536) }

/-- The inputs a request is put over: those the state holds for this tick, else steady lines at the
remembered levels and nothing asked. -/
def fetchBase (s : State) : TickInput :=
  match s.inputs with
  | [] => quietInput s.level
  | inp :: _ => inp

/-- The state whose very next tick presents the request. A fast-bus request is accepted only where
`fb_ack` is 0 (R300), so that is set too. -/
def placeRequest (s : State) (nbits w : Nat) : State :=
  { s with
    inputs := fetchInput (fetchBase s) nbits w :: s.inputs.tail
    fbAck  := if nbits ≤ 8 then s.fbAck else false }

end Sys2Proof.Machine
end

