-- ==== Sys2Proof/Machine/FastBusCapture.lean ====
section
/-! DEFINITION. Meanings: counter and capture head of the fast-bus view (spec/48_host_fastbus.md section 2).
Each is the whole tick in which its view presents the operation. -/

namespace Sys2Proof.Machine

/-- `FB.WR.COUNTER` (R304). -/
def execFbWrCounter (wdata : Word) (s : State) : Host.Outcome State Fault Refusal :=
  fastBusTick (.fbWrCounter wdata) (effectFbWrCounter wdata s) s

/-- `FB.RD.COUNTER` (R303). -/
def execFbRdCounter (s : State) : Host.Outcome State Fault Refusal :=
  fastBusTick .fbRdCounter (effectFbRdCounter s) s

/-- `FB.WR.CAP_TIME` (R306). -/
def execFbWrCapTime (wdata : Word) (s : State) : Host.Outcome State Fault Refusal :=
  fastBusTick (.fbWrCapTime wdata) (effectFbWrCapTime wdata s) s

/-- `FB.RD.CAP_TIME` (R305). -/
def execFbRdCapTime (s : State) : Host.Outcome State Fault Refusal :=
  fastBusTick .fbRdCapTime (effectFbRdCapTime s) s

/-- `FB.WR.CAP_DATA` (R308). -/
def execFbWrCapData (wdata : Word) (s : State) : Host.Outcome State Fault Refusal :=
  fastBusTick (.fbWrCapData wdata) (effectFbWrCapData wdata s) s

/-- `FB.RD.CAP_DATA` (R307). -/
def execFbRdCapData (s : State) : Host.Outcome State Fault Refusal :=
  fastBusTick .fbRdCapData (effectFbRdCapData s) s

/-- `FB.WR.CAP_NEXT` (R309). -/
def execFbWrCapNext (wdata : Word) (s : State) : Host.Outcome State Fault Refusal :=
  fastBusTick (.fbWrCapNext wdata) (effectFbWrCapNext wdata s) s

/-- `FB.RD.CAP_NEXT` (R310). -/
def execFbRdCapNext (s : State) : Host.Outcome State Fault Refusal :=
  fastBusTick .fbRdCapNext (effectFbRdCapNext s) s

end Sys2Proof.Machine
end

