-- ==== Sys2Proof/Machine/FastBusSchedule.lean ====
section
/-! DEFINITION. Meanings: schedule input and reserved addresses of the fast-bus view (spec/48_host_fastbus.md sections 3 and 4).
Each is the whole tick in which its view presents the operation. -/

namespace Sys2Proof.Machine

/-- `FB.WR.SCHED_TIME` (R311). -/
def execFbWrSchedTime (wdata : Word) (s : State) : Host.Outcome State Fault Refusal :=
  fastBusTick (.fbWrSchedTime wdata) (effectFbWrSchedTime wdata s) s

/-- `FB.RD.SCHED_TIME` (R312). -/
def execFbRdSchedTime (s : State) : Host.Outcome State Fault Refusal :=
  fastBusTick .fbRdSchedTime (effectFbRdSchedTime s) s

/-- `FB.WR.SCHED_DATA` (R313). -/
def execFbWrSchedData (wdata : Word) (s : State) : Host.Outcome State Fault Refusal :=
  fastBusTick (.fbWrSchedData wdata) (effectFbWrSchedData wdata s) s

/-- `FB.RD.SCHED_DATA` (R314). -/
def execFbRdSchedData (s : State) : Host.Outcome State Fault Refusal :=
  fastBusTick .fbRdSchedData (effectFbRdSchedData s) s

/-- `FB.WR.SCHED_NEXT` (R315). -/
def execFbWrSchedNext (wdata : Word) (s : State) : Host.Outcome State Fault Refusal :=
  fastBusTick (.fbWrSchedNext wdata) (effectFbWrSchedNext wdata s) s

/-- `FB.RD.SCHED_NEXT` (R316). -/
def execFbRdSchedNext (s : State) : Host.Outcome State Fault Refusal :=
  fastBusTick .fbRdSchedNext (effectFbRdSchedNext s) s

/-- `FB.RD.RESERVED` (R317). -/
def execFbRdReserved (adr : BitVec 8) (s : State) : Host.Outcome State Fault Refusal :=
  fastBusTick (.fbRdReserved adr) (effectFbRdReserved adr s) s

/-- `FB.WR.RESERVED` (R317). -/
def execFbWrReserved (adr : BitVec 8) (wdata : Word) (s : State) : Host.Outcome State Fault Refusal :=
  fastBusTick (.fbWrReserved adr wdata) (effectFbWrReserved adr wdata s) s

end Sys2Proof.Machine
end

