-- ==== Sys2Proof/Machine/RegBankCapture.lean ====
section
/-! DEFINITION. Meanings: counter and capture head of the register-bank view (spec/47_host_regbank.md section 4).
Each is the whole tick in which its view presents the operation. -/

namespace Sys2Proof.Machine

/-- `RB.WR.COUNTER` (R276). -/
def execRbWrCounter (wdata : Word) (s : State) : Host.Outcome State Fault Refusal :=
  regBankTick (.rbWrCounter wdata) (effectRbWrCounter wdata s) s

/-- `RB.RD.COUNTER` (R275). -/
def execRbRdCounter (s : State) : Host.Outcome State Fault Refusal :=
  regBankTick .rbRdCounter (effectRbRdCounter s) s

/-- `RB.WR.CAP_TIME` (R278). -/
def execRbWrCapTime (wdata : Word) (s : State) : Host.Outcome State Fault Refusal :=
  regBankTick (.rbWrCapTime wdata) (effectRbWrCapTime wdata s) s

/-- `RB.RD.CAP_TIME` (R277). -/
def execRbRdCapTime (s : State) : Host.Outcome State Fault Refusal :=
  regBankTick .rbRdCapTime (effectRbRdCapTime s) s

/-- `RB.WR.CAP_DATA` (R280). -/
def execRbWrCapData (wdata : Word) (s : State) : Host.Outcome State Fault Refusal :=
  regBankTick (.rbWrCapData wdata) (effectRbWrCapData wdata s) s

/-- `RB.RD.CAP_DATA` (R279). -/
def execRbRdCapData (s : State) : Host.Outcome State Fault Refusal :=
  regBankTick .rbRdCapData (effectRbRdCapData s) s

/-- `RB.WR.CAP_NEXT` (R281). -/
def execRbWrCapNext (wdata : Word) (s : State) : Host.Outcome State Fault Refusal :=
  regBankTick (.rbWrCapNext wdata) (effectRbWrCapNext wdata s) s

/-- `RB.RD.CAP_NEXT` (R282). -/
def execRbRdCapNext (s : State) : Host.Outcome State Fault Refusal :=
  regBankTick .rbRdCapNext (effectRbRdCapNext s) s

end Sys2Proof.Machine
end

