-- ==== Sys2Proof/Machine/RegBankChannel.lean ====
section
/-! DEFINITION. Meanings: per-channel registers of the register-bank view (spec/47_host_regbank.md section 3).
Each is the whole tick in which its view presents the operation. -/

namespace Sys2Proof.Machine

/-- `RB.WR.LEVEL` (R268). -/
def execRbWrLevel (wdata : Word) (s : State) : Host.Outcome State Fault Refusal :=
  regBankTick (.rbWrLevel wdata) (effectRbWrLevel wdata s) s

/-- `RB.RD.LEVEL` (R267). -/
def execRbRdLevel (s : State) : Host.Outcome State Fault Refusal :=
  regBankTick .rbRdLevel (effectRbRdLevel s) s

/-- `RB.WR.RISING_EN` (R269). -/
def execRbWrRisingEn (wdata : Word) (s : State) : Host.Outcome State Fault Refusal :=
  regBankTick (.rbWrRisingEn wdata) (effectRbWrRisingEn wdata s) s

/-- `RB.RD.RISING_EN` (R270). -/
def execRbRdRisingEn (s : State) : Host.Outcome State Fault Refusal :=
  regBankTick .rbRdRisingEn (effectRbRdRisingEn s) s

/-- `RB.WR.FALLING_EN` (R271). -/
def execRbWrFallingEn (wdata : Word) (s : State) : Host.Outcome State Fault Refusal :=
  regBankTick (.rbWrFallingEn wdata) (effectRbWrFallingEn wdata s) s

/-- `RB.RD.FALLING_EN` (R272). -/
def execRbRdFallingEn (s : State) : Host.Outcome State Fault Refusal :=
  regBankTick .rbRdFallingEn (effectRbRdFallingEn s) s

/-- `RB.WR.OUTPUT_EN` (R273). -/
def execRbWrOutputEn (wdata : Word) (s : State) : Host.Outcome State Fault Refusal :=
  regBankTick (.rbWrOutputEn wdata) (effectRbWrOutputEn wdata s) s

/-- `RB.RD.OUTPUT_EN` (R274). -/
def execRbRdOutputEn (s : State) : Host.Outcome State Fault Refusal :=
  regBankTick .rbRdOutputEn (effectRbRdOutputEn s) s

end Sys2Proof.Machine
end

