-- ==== Sys2Proof/Machine/RegBankControl.lean ====
section
/-! DEFINITION. Meanings: control registers of the register-bank view (spec/47_host_regbank.md section 2).
Each is the whole tick in which its view presents the operation. -/

namespace Sys2Proof.Machine

/-- `RB.WR.COUNTER_ZERO` (R257). -/
def execRbWrCounterZero (wdata : Word) (s : State) : Host.Outcome State Fault Refusal :=
  regBankTick (.rbWrCounterZero wdata) (effectRbWrCounterZero wdata s) s

/-- `RB.RD.COUNTER_ZERO` (R258). -/
def execRbRdCounterZero (s : State) : Host.Outcome State Fault Refusal :=
  regBankTick .rbRdCounterZero (effectRbRdCounterZero s) s

/-- `RB.WR.ARM` (R259). -/
def execRbWrArm (wdata : Word) (s : State) : Host.Outcome State Fault Refusal :=
  regBankTick (.rbWrArm wdata) (effectRbWrArm wdata s) s

/-- `RB.RD.ARM` (R260). -/
def execRbRdArm (s : State) : Host.Outcome State Fault Refusal :=
  regBankTick .rbRdArm (effectRbRdArm s) s

/-- `RB.WR.FORCE` (R261). -/
def execRbWrForce (wdata : Word) (s : State) : Host.Outcome State Fault Refusal :=
  regBankTick (.rbWrForce wdata) (effectRbWrForce wdata s) s

/-- `RB.RD.FORCE` (R262). -/
def execRbRdForce (s : State) : Host.Outcome State Fault Refusal :=
  regBankTick .rbRdForce (effectRbRdForce s) s

/-- `RB.WR.FLUSH_CAPTURE` (R263). -/
def execRbWrFlushCapture (wdata : Word) (s : State) : Host.Outcome State Fault Refusal :=
  regBankTick (.rbWrFlushCapture wdata) (effectRbWrFlushCapture wdata s) s

/-- `RB.RD.FLUSH_CAPTURE` (R264). -/
def execRbRdFlushCapture (s : State) : Host.Outcome State Fault Refusal :=
  regBankTick .rbRdFlushCapture (effectRbRdFlushCapture s) s

/-- `RB.WR.FLUSH_SCHEDULE` (R265). -/
def execRbWrFlushSchedule (wdata : Word) (s : State) : Host.Outcome State Fault Refusal :=
  regBankTick (.rbWrFlushSchedule wdata) (effectRbWrFlushSchedule wdata s) s

/-- `RB.RD.FLUSH_SCHEDULE` (R266). -/
def execRbRdFlushSchedule (s : State) : Host.Outcome State Fault Refusal :=
  regBankTick .rbRdFlushSchedule (effectRbRdFlushSchedule s) s

end Sys2Proof.Machine
end

