-- ==== Sys2Proof/Machine/RegBankSchedule.lean ====
section
/-! DEFINITION. Meanings: schedule input and reserved indices of the register-bank view (spec/47_host_regbank.md sections 5 and 6).
Each is the whole tick in which its view presents the operation. -/

namespace Sys2Proof.Machine

/-- `RB.WR.SCHED_TIME` (R283). -/
def execRbWrSchedTime (wdata : Word) (s : State) : Host.Outcome State Fault Refusal :=
  regBankTick (.rbWrSchedTime wdata) (effectRbWrSchedTime wdata s) s

/-- `RB.RD.SCHED_TIME` (R284). -/
def execRbRdSchedTime (s : State) : Host.Outcome State Fault Refusal :=
  regBankTick .rbRdSchedTime (effectRbRdSchedTime s) s

/-- `RB.WR.SCHED_DATA` (R285). -/
def execRbWrSchedData (wdata : Word) (s : State) : Host.Outcome State Fault Refusal :=
  regBankTick (.rbWrSchedData wdata) (effectRbWrSchedData wdata s) s

/-- `RB.RD.SCHED_DATA` (R286). -/
def execRbRdSchedData (s : State) : Host.Outcome State Fault Refusal :=
  regBankTick .rbRdSchedData (effectRbRdSchedData s) s

/-- `RB.WR.SCHED_NEXT` (R287). -/
def execRbWrSchedNext (wdata : Word) (s : State) : Host.Outcome State Fault Refusal :=
  regBankTick (.rbWrSchedNext wdata) (effectRbWrSchedNext wdata s) s

/-- `RB.RD.SCHED_NEXT` (R288). -/
def execRbRdSchedNext (s : State) : Host.Outcome State Fault Refusal :=
  regBankTick .rbRdSchedNext (effectRbRdSchedNext s) s

/-- `RB.RD.RESERVED` (R289). -/
def execRbRdReserved (idx : BitVec 5) (s : State) : Host.Outcome State Fault Refusal :=
  regBankTick (.rbRdReserved idx) (effectRbRdReserved idx s) s

/-- `RB.WR.RESERVED` (R289). -/
def execRbWrReserved (idx : BitVec 5) (wdata : Word) (s : State) : Host.Outcome State Fault Refusal :=
  regBankTick (.rbWrReserved idx wdata) (effectRbWrReserved idx wdata s) s

end Sys2Proof.Machine
end

