-- ==== Sys2Proof/Machine/Dispatch.lean ====
section
/-! DEFINITION. The meaning of every host operation: one arm per constructor of Instr. -/

namespace Sys2Proof.Machine

def exec (i : Instr) (s : State) : Host.Outcome State Fault Refusal :=
  match i with
  | .rbWrCounterZero wdata => Sys2Proof.Machine.execRbWrCounterZero wdata s
  | .rbRdCounterZero => Sys2Proof.Machine.execRbRdCounterZero s
  | .rbWrArm wdata => Sys2Proof.Machine.execRbWrArm wdata s
  | .rbRdArm => Sys2Proof.Machine.execRbRdArm s
  | .rbWrForce wdata => Sys2Proof.Machine.execRbWrForce wdata s
  | .rbRdForce => Sys2Proof.Machine.execRbRdForce s
  | .rbWrFlushCapture wdata => Sys2Proof.Machine.execRbWrFlushCapture wdata s
  | .rbRdFlushCapture => Sys2Proof.Machine.execRbRdFlushCapture s
  | .rbWrFlushSchedule wdata => Sys2Proof.Machine.execRbWrFlushSchedule wdata s
  | .rbRdFlushSchedule => Sys2Proof.Machine.execRbRdFlushSchedule s
  | .rbWrLevel wdata => Sys2Proof.Machine.execRbWrLevel wdata s
  | .rbRdLevel => Sys2Proof.Machine.execRbRdLevel s
  | .rbWrRisingEn wdata => Sys2Proof.Machine.execRbWrRisingEn wdata s
  | .rbRdRisingEn => Sys2Proof.Machine.execRbRdRisingEn s
  | .rbWrFallingEn wdata => Sys2Proof.Machine.execRbWrFallingEn wdata s
  | .rbRdFallingEn => Sys2Proof.Machine.execRbRdFallingEn s
  | .rbWrOutputEn wdata => Sys2Proof.Machine.execRbWrOutputEn wdata s
  | .rbRdOutputEn => Sys2Proof.Machine.execRbRdOutputEn s
  | .rbWrCounter wdata => Sys2Proof.Machine.execRbWrCounter wdata s
  | .rbRdCounter => Sys2Proof.Machine.execRbRdCounter s
  | .rbWrCapTime wdata => Sys2Proof.Machine.execRbWrCapTime wdata s
  | .rbRdCapTime => Sys2Proof.Machine.execRbRdCapTime s
  | .rbWrCapData wdata => Sys2Proof.Machine.execRbWrCapData wdata s
  | .rbRdCapData => Sys2Proof.Machine.execRbRdCapData s
  | .rbWrCapNext wdata => Sys2Proof.Machine.execRbWrCapNext wdata s
  | .rbRdCapNext => Sys2Proof.Machine.execRbRdCapNext s
  | .rbWrSchedTime wdata => Sys2Proof.Machine.execRbWrSchedTime wdata s
  | .rbRdSchedTime => Sys2Proof.Machine.execRbRdSchedTime s
  | .rbWrSchedData wdata => Sys2Proof.Machine.execRbWrSchedData wdata s
  | .rbRdSchedData => Sys2Proof.Machine.execRbRdSchedData s
  | .rbWrSchedNext wdata => Sys2Proof.Machine.execRbWrSchedNext wdata s
  | .rbRdSchedNext => Sys2Proof.Machine.execRbRdSchedNext s
  | .rbRdReserved idx => Sys2Proof.Machine.execRbRdReserved idx s
  | .rbWrReserved idx wdata => Sys2Proof.Machine.execRbWrReserved idx wdata s
  | .fbWrCounter wdata => Sys2Proof.Machine.execFbWrCounter wdata s
  | .fbRdCounter => Sys2Proof.Machine.execFbRdCounter s
  | .fbWrCapTime wdata => Sys2Proof.Machine.execFbWrCapTime wdata s
  | .fbRdCapTime => Sys2Proof.Machine.execFbRdCapTime s
  | .fbWrCapData wdata => Sys2Proof.Machine.execFbWrCapData wdata s
  | .fbRdCapData => Sys2Proof.Machine.execFbRdCapData s
  | .fbWrCapNext wdata => Sys2Proof.Machine.execFbWrCapNext wdata s
  | .fbRdCapNext => Sys2Proof.Machine.execFbRdCapNext s
  | .fbWrSchedTime wdata => Sys2Proof.Machine.execFbWrSchedTime wdata s
  | .fbRdSchedTime => Sys2Proof.Machine.execFbRdSchedTime s
  | .fbWrSchedData wdata => Sys2Proof.Machine.execFbWrSchedData wdata s
  | .fbRdSchedData => Sys2Proof.Machine.execFbRdSchedData s
  | .fbWrSchedNext wdata => Sys2Proof.Machine.execFbWrSchedNext wdata s
  | .fbRdSchedNext => Sys2Proof.Machine.execFbRdSchedNext s
  | .fbRdReserved adr => Sys2Proof.Machine.execFbRdReserved adr s
  | .fbWrReserved adr wdata => Sys2Proof.Machine.execFbWrReserved adr wdata s

end Sys2Proof.Machine
end

