-- ==== Sys2Proof/Machine/Step.lean ====
section
/-! DEFINITION. One step of the model: one tick (spec/49_tick.md rule R331). -/

namespace Sys2Proof.Machine

/-- One tick: the meaning of the operation the inputs present, or the tick without one. -/
def step (s : State) : Host.Outcome State Fault Refusal :=
  match presentedInstr s with
  | some i => exec i s
  | none => idleTick s

/-- `s` with a request of `nbits` opcode-table bits presented in its very next tick (log entry 4). -/
def State.withFetchWord (s : State) (nbits w : Nat) : State := placeRequest s nbits w

end Sys2Proof.Machine
end

