-- ==== Sys2Proof/Laws/PerInstr.lean ====
section
/-! SUPPORT. The per-instruction family `EncodeFollowsTable`: the key a well-formed operation is encoded
with is looked up in spec/opcode_table.json to the operation's own row, one lemma a constructor. -/

namespace Sys2Proof.Laws.EncodeFollowsTable

/-- The look-up of R120 gives the operation's own row. -/
def Statement (i : Instr) : Prop :=
  i.wellFormed = true →
    (lookUp i.view.opcodeRows (requestKey (encode i))).map OpcodeRow.mnemonic = some i.mnemonic

/-- The look-up of a reserved register-bank key, every index. -/
theorem lookUp_rbReserved : ∀ idx : BitVec 5, ReservedIndex idx →
    (lookUp rbRows ((0#1 ++ idx).setWidth 8).toNat).map OpcodeRow.mnemonic = some "RB.RD.RESERVED" ∧
    (lookUp rbRows ((1#1 ++ idx).setWidth 8).toNat).map OpcodeRow.mnemonic = some "RB.WR.RESERVED" := by
  decide


/-- The look-up of a reserved fast-bus read key, every address. -/
theorem lookUp_fbReservedRead : ∀ adr : BitVec 8, ReservedAddress adr →
    (lookUp fbRows
      ((((0#1 ++ adr).extractLsb' 8 1).setWidth 8) ++ ((0#1 ++ adr).extractLsb' 0 8)).toNat).map
        OpcodeRow.mnemonic = some "FB.RD.RESERVED" := by
  decide


/-- The look-up of a reserved fast-bus write key, every address. -/
theorem lookUp_fbReservedWrite : ∀ adr : BitVec 8, ReservedAddress adr →
    (lookUp fbRows
      ((((1#1 ++ adr).extractLsb' 8 1).setWidth 8) ++ ((1#1 ++ adr).extractLsb' 0 8)).toNat).map
        OpcodeRow.mnemonic = some "FB.WR.RESERVED" := by
  decide


theorem rbWrCounterZero (wdata : Word) : Statement (.rbWrCounterZero wdata) := fun _ =>
  show (lookUp rbRows 0x20).map OpcodeRow.mnemonic = some "RB.WR.COUNTER_ZERO" from rfl
theorem rbRdCounterZero : Statement .rbRdCounterZero := fun _ =>
  show (lookUp rbRows 0x00).map OpcodeRow.mnemonic = some "RB.RD.COUNTER_ZERO" from rfl
theorem rbWrArm (wdata : Word) : Statement (.rbWrArm wdata) := fun _ =>
  show (lookUp rbRows 0x21).map OpcodeRow.mnemonic = some "RB.WR.ARM" from rfl
theorem rbRdArm : Statement .rbRdArm := fun _ =>
  show (lookUp rbRows 0x01).map OpcodeRow.mnemonic = some "RB.RD.ARM" from rfl
theorem rbWrForce (wdata : Word) : Statement (.rbWrForce wdata) := fun _ =>
  show (lookUp rbRows 0x22).map OpcodeRow.mnemonic = some "RB.WR.FORCE" from rfl
theorem rbRdForce : Statement .rbRdForce := fun _ =>
  show (lookUp rbRows 0x02).map OpcodeRow.mnemonic = some "RB.RD.FORCE" from rfl
theorem rbWrFlushCapture (wdata : Word) : Statement (.rbWrFlushCapture wdata) := fun _ =>
  show (lookUp rbRows 0x23).map OpcodeRow.mnemonic = some "RB.WR.FLUSH_CAPTURE" from rfl
theorem rbRdFlushCapture : Statement .rbRdFlushCapture := fun _ =>
  show (lookUp rbRows 0x03).map OpcodeRow.mnemonic = some "RB.RD.FLUSH_CAPTURE" from rfl
theorem rbWrFlushSchedule (wdata : Word) : Statement (.rbWrFlushSchedule wdata) := fun _ =>
  show (lookUp rbRows 0x24).map OpcodeRow.mnemonic = some "RB.WR.FLUSH_SCHEDULE" from rfl
theorem rbRdFlushSchedule : Statement .rbRdFlushSchedule := fun _ =>
  show (lookUp rbRows 0x04).map OpcodeRow.mnemonic = some "RB.RD.FLUSH_SCHEDULE" from rfl
theorem rbWrLevel (wdata : Word) : Statement (.rbWrLevel wdata) := fun _ =>
  show (lookUp rbRows 0x25).map OpcodeRow.mnemonic = some "RB.WR.LEVEL" from rfl
theorem rbRdLevel : Statement .rbRdLevel := fun _ =>
  show (lookUp rbRows 0x05).map OpcodeRow.mnemonic = some "RB.RD.LEVEL" from rfl
theorem rbWrRisingEn (wdata : Word) : Statement (.rbWrRisingEn wdata) := fun _ =>
  show (lookUp rbRows 0x26).map OpcodeRow.mnemonic = some "RB.WR.RISING_EN" from rfl
theorem rbRdRisingEn : Statement .rbRdRisingEn := fun _ =>
  show (lookUp rbRows 0x06).map OpcodeRow.mnemonic = some "RB.RD.RISING_EN" from rfl
theorem rbWrFallingEn (wdata : Word) : Statement (.rbWrFallingEn wdata) := fun _ =>
  show (lookUp rbRows 0x27).map OpcodeRow.mnemonic = some "RB.WR.FALLING_EN" from rfl
theorem rbRdFallingEn : Statement .rbRdFallingEn := fun _ =>
  show (lookUp rbRows 0x07).map OpcodeRow.mnemonic = some "RB.RD.FALLING_EN" from rfl
theorem rbWrOutputEn (wdata : Word) : Statement (.rbWrOutputEn wdata) := fun _ =>
  show (lookUp rbRows 0x28).map OpcodeRow.mnemonic = some "RB.WR.OUTPUT_EN" from rfl
theorem rbRdOutputEn : Statement .rbRdOutputEn := fun _ =>
  show (lookUp rbRows 0x08).map OpcodeRow.mnemonic = some "RB.RD.OUTPUT_EN" from rfl
theorem rbWrCounter (wdata : Word) : Statement (.rbWrCounter wdata) := fun _ =>
  show (lookUp rbRows 0x29).map OpcodeRow.mnemonic = some "RB.WR.COUNTER" from rfl
theorem rbRdCounter : Statement .rbRdCounter := fun _ =>
  show (lookUp rbRows 0x09).map OpcodeRow.mnemonic = some "RB.RD.COUNTER" from rfl
theorem rbWrCapTime (wdata : Word) : Statement (.rbWrCapTime wdata) := fun _ =>
  show (lookUp rbRows 0x2A).map OpcodeRow.mnemonic = some "RB.WR.CAP_TIME" from rfl
theorem rbRdCapTime : Statement .rbRdCapTime := fun _ =>
  show (lookUp rbRows 0x0A).map OpcodeRow.mnemonic = some "RB.RD.CAP_TIME" from rfl
theorem rbWrCapData (wdata : Word) : Statement (.rbWrCapData wdata) := fun _ =>
  show (lookUp rbRows 0x2B).map OpcodeRow.mnemonic = some "RB.WR.CAP_DATA" from rfl
theorem rbRdCapData : Statement .rbRdCapData := fun _ =>
  show (lookUp rbRows 0x0B).map OpcodeRow.mnemonic = some "RB.RD.CAP_DATA" from rfl
theorem rbWrCapNext (wdata : Word) : Statement (.rbWrCapNext wdata) := fun _ =>
  show (lookUp rbRows 0x2C).map OpcodeRow.mnemonic = some "RB.WR.CAP_NEXT" from rfl
theorem rbRdCapNext : Statement .rbRdCapNext := fun _ =>
  show (lookUp rbRows 0x0C).map OpcodeRow.mnemonic = some "RB.RD.CAP_NEXT" from rfl
theorem rbWrSchedTime (wdata : Word) : Statement (.rbWrSchedTime wdata) := fun _ =>
  show (lookUp rbRows 0x2D).map OpcodeRow.mnemonic = some "RB.WR.SCHED_TIME" from rfl
theorem rbRdSchedTime : Statement .rbRdSchedTime := fun _ =>
  show (lookUp rbRows 0x0D).map OpcodeRow.mnemonic = some "RB.RD.SCHED_TIME" from rfl
theorem rbWrSchedData (wdata : Word) : Statement (.rbWrSchedData wdata) := fun _ =>
  show (lookUp rbRows 0x2E).map OpcodeRow.mnemonic = some "RB.WR.SCHED_DATA" from rfl
theorem rbRdSchedData : Statement .rbRdSchedData := fun _ =>
  show (lookUp rbRows 0x0E).map OpcodeRow.mnemonic = some "RB.RD.SCHED_DATA" from rfl
theorem rbWrSchedNext (wdata : Word) : Statement (.rbWrSchedNext wdata) := fun _ =>
  show (lookUp rbRows 0x2F).map OpcodeRow.mnemonic = some "RB.WR.SCHED_NEXT" from rfl
theorem rbRdSchedNext : Statement .rbRdSchedNext := fun _ =>
  show (lookUp rbRows 0x0F).map OpcodeRow.mnemonic = some "RB.RD.SCHED_NEXT" from rfl
theorem rbRdReserved (idx : BitVec 5) : Statement (.rbRdReserved idx) := fun h => (lookUp_rbReserved idx (of_decide_eq_true h)).1
theorem rbWrReserved (idx : BitVec 5) (wdata : Word) : Statement (.rbWrReserved idx wdata) := fun h => (lookUp_rbReserved idx (of_decide_eq_true h)).2
theorem fbWrCounter (wdata : Word) : Statement (.fbWrCounter wdata) := fun _ =>
  show (lookUp fbRows 0x100).map OpcodeRow.mnemonic = some "FB.WR.COUNTER" from rfl
theorem fbRdCounter : Statement .fbRdCounter := fun _ =>
  show (lookUp fbRows 0x00).map OpcodeRow.mnemonic = some "FB.RD.COUNTER" from rfl
theorem fbWrCapTime (wdata : Word) : Statement (.fbWrCapTime wdata) := fun _ =>
  show (lookUp fbRows 0x101).map OpcodeRow.mnemonic = some "FB.WR.CAP_TIME" from rfl
theorem fbRdCapTime : Statement .fbRdCapTime := fun _ =>
  show (lookUp fbRows 0x01).map OpcodeRow.mnemonic = some "FB.RD.CAP_TIME" from rfl
theorem fbWrCapData (wdata : Word) : Statement (.fbWrCapData wdata) := fun _ =>
  show (lookUp fbRows 0x102).map OpcodeRow.mnemonic = some "FB.WR.CAP_DATA" from rfl
theorem fbRdCapData : Statement .fbRdCapData := fun _ =>
  show (lookUp fbRows 0x02).map OpcodeRow.mnemonic = some "FB.RD.CAP_DATA" from rfl
theorem fbWrCapNext (wdata : Word) : Statement (.fbWrCapNext wdata) := fun _ =>
  show (lookUp fbRows 0x103).map OpcodeRow.mnemonic = some "FB.WR.CAP_NEXT" from rfl
theorem fbRdCapNext : Statement .fbRdCapNext := fun _ =>
  show (lookUp fbRows 0x03).map OpcodeRow.mnemonic = some "FB.RD.CAP_NEXT" from rfl
theorem fbWrSchedTime (wdata : Word) : Statement (.fbWrSchedTime wdata) := fun _ =>
  show (lookUp fbRows 0x104).map OpcodeRow.mnemonic = some "FB.WR.SCHED_TIME" from rfl
theorem fbRdSchedTime : Statement .fbRdSchedTime := fun _ =>
  show (lookUp fbRows 0x04).map OpcodeRow.mnemonic = some "FB.RD.SCHED_TIME" from rfl
theorem fbWrSchedData (wdata : Word) : Statement (.fbWrSchedData wdata) := fun _ =>
  show (lookUp fbRows 0x105).map OpcodeRow.mnemonic = some "FB.WR.SCHED_DATA" from rfl
theorem fbRdSchedData : Statement .fbRdSchedData := fun _ =>
  show (lookUp fbRows 0x05).map OpcodeRow.mnemonic = some "FB.RD.SCHED_DATA" from rfl
theorem fbWrSchedNext (wdata : Word) : Statement (.fbWrSchedNext wdata) := fun _ =>
  show (lookUp fbRows 0x106).map OpcodeRow.mnemonic = some "FB.WR.SCHED_NEXT" from rfl
theorem fbRdSchedNext : Statement .fbRdSchedNext := fun _ =>
  show (lookUp fbRows 0x06).map OpcodeRow.mnemonic = some "FB.RD.SCHED_NEXT" from rfl
theorem fbRdReserved (adr : BitVec 8) : Statement (.fbRdReserved adr) := fun h => lookUp_fbReservedRead adr (of_decide_eq_true h)
theorem fbWrReserved (adr : BitVec 8) (wdata : Word) : Statement (.fbWrReserved adr wdata) := fun h => lookUp_fbReservedWrite adr (of_decide_eq_true h)

end Sys2Proof.Laws.EncodeFollowsTable
end

