-- ==== Sys2Proof/Machine/Trace.lean ====
section
/-! DEFINITION. The trace notation of host programs (spec/30_encoding.md rules R130, R131): a line a tick,
and the pseudo-operations with their expansions. The notation is the spec's own; nothing of the machine
depends on it. -/

namespace Sys2Proof.Machine

open Sys2Proof.Config

/-- One line of a trace (R130). The fast-bus part is the write flag, the address and the data of the
request; a channel that `samp` does not name keeps its steady value. -/
structure TraceLine where
  rbOp    : RbOp := .none
  fbOp    : Option (Bool × Nat × Word) := none
  samp    : List (Nat × Samples) := []
  trigger : Option Bool := none
  evClear : BitVec 7 := 0#7
  rst     : Bool := false
deriving DecidableEq, Repr

/-- The sample vector a line gives channel `c`, the lines having stood at `levels` (R130). -/
def traceSamples (l : TraceLine) (levels : Word) (c : Nat) : Samples :=
  (l.samp.lookup c).getD (rep8 (levels.getLsbD c))

/-- The inputs of the tick of a line, the lines having stood at `levels` and `trigger` at `trig` (R130). -/
def traceInput (l : TraceLine) (levels : Word) (trig : Bool) : TickInput where
  rst     := l.rst
  samp    := Vector.ofFn fun c : Fin 32 => traceSamples l levels c.val
  trigger := l.trigger.getD trig
  rbOp    := l.rbOp
  fbReq   := l.fbOp.isSome
  fbWe    := (l.fbOp.map fun f => f.1).getD false
  fbAdr   := (l.fbOp.map fun f => f.2.1).getD 0
  fbWdata := (l.fbOp.map fun f => f.2.2).getD 0#32
  evClear := l.evClear

/-- The levels the lines hold after a line: bit `OSF-1` of each channel's vector (R130). -/
def traceLevels (v : Variant) (l : TraceLine) (levels : Word) : Word :=
  bitmapOf 32 fun c => (traceSamples l levels c).getLsbD (v.osf - 1)

/-- The inputs of a trace (R130), from the levels and the trigger before it. -/
def traceInputs (v : Variant) : Word → Bool → List TraceLine → List TickInput
  | _, _, [] => []
  | levels, trig, l :: rest =>
    traceInput l levels trig ::
      traceInputs v (traceLevels v l levels) (l.trigger.getD trig) rest

/-- `IDLE n` (R131). -/
def traceIdle (n : Nat) : List TraceLine := List.replicate n {}

/-- `RB.POP` (R131). -/
def traceRbPop : List TraceLine := [{ rbOp := .write 12#5 0#32 }]

/-- `RB.PUSH ts, data` (R131). -/
def traceRbPush (ts data : Word) : List TraceLine :=
  [{ rbOp := .write 13#5 ts }, { rbOp := .write 14#5 data }, { rbOp := .write 15#5 0#32 }]

/-- `RB.READCAP` (R131). -/
def traceRbReadcap : List TraceLine :=
  [{ rbOp := .read 10#5 }, { rbOp := .read 11#5 }] ++ traceRbPop

/-- A fast-bus write and its acknowledge tick `FB.ACK` (R130). -/
def traceFbWrite (adr : Nat) (wdata : Word) : List TraceLine := [{ fbOp := some (true, adr, wdata) }, {}]

/-- A fast-bus read and its acknowledge tick `FB.ACK` (R130). -/
def traceFbRead (adr : Nat) : List TraceLine := [{ fbOp := some (false, adr, 0#32) }, {}]

/-- `FB.POP` (R131). -/
def traceFbPop : List TraceLine := traceFbWrite 3 0#32

/-- `FB.PUSH ts, data` (R131). -/
def traceFbPush (ts data : Word) : List TraceLine :=
  traceFbWrite 4 ts ++ traceFbWrite 5 data ++ traceFbWrite 6 0#32

/-- `TS(cycle, sub)` (R131): `cycle * OSF + sub`. -/
def traceTs (v : Variant) (cycle sub : Nat) : Word := BitVec.ofNat 32 (cycle * v.osf + sub)

end Sys2Proof.Machine
end

