-- ==== Sys2Proof/Safety.lean ====
section
/-! DEFINITION. The terms the statements use: the rules of one tick written out as relations between
`S_t`, `I_t` and `S_{t+1}` (spec/49_tick.md R331, R332) in arithmetic on numbers and in single bits, apart
from the functions that compute them; and the invariant of every state a run reaches (R338). -/

namespace Sys2Proof.Safety

open Sys2Proof.Machine Sys2Proof.Config

/-! ## Inputs of a tick -/

/-- The level channel `c` is sampled at in phase `k` (R142). -/
def sampleAt (inp : TickInput) (c k : Nat) : Bool := (lane inp.samp c).getLsbD k

/-- `running` (R225). -/
abbrev Running (s : State) (inp : TickInput) : Prop :=
  (s.arm = true ∧ inp.trigger = true) ∨ s.force = true

/-- The register-bank view writes register `idx` in this tick. -/
def rbWrites (inp : TickInput) (idx : Nat) : Bool :=
  match inp.rbOp with
  | .write i _ => i.toNat == idx
  | .read _ => false
  | .none => false

/-- The register-bank view reads register `idx` in this tick. -/
def rbReads (inp : TickInput) (idx : Nat) : Bool :=
  match inp.rbOp with
  | .read i => i.toNat == idx
  | .write _ _ => false
  | .none => false

/-- A fast-bus request is accepted in this tick (R300). -/
def fbAccepts (s : State) (inp : TickInput) : Bool := inp.fbReq && !s.fbAck

/-- An accepted fast-bus write of low address byte `adr`. -/
def fbWrites (s : State) (inp : TickInput) (adr : Nat) : Bool :=
  fbAccepts s inp && inp.fbWe && (inp.fbAdr % 256 == adr)

/-- An accepted fast-bus read of low address byte `adr`. -/
def fbReads (s : State) (inp : TickInput) (adr : Nat) : Bool :=
  fbAccepts s inp && !inp.fbWe && (inp.fbAdr % 256 == adr)

/-! ## The registers the host alone writes (R43) -/

/-- The storage registers, written by the host and by nothing else. -/
structure HostRegs where
  arm       : Bool
  force     : Bool
  flushCap  : Bool
  flushSch  : Bool
  riseEn    : Word
  fallEn    : Word
  outEn     : Word
  schedTime : Word
  schedData : Word
deriving DecidableEq, Repr

/-- The storage registers of a state. -/
def hostRegs (s : State) : HostRegs :=
  ⟨s.arm, s.force, s.flushCap, s.flushSch, s.riseEn, s.fallEn, s.outEn, s.schedTime, s.schedData⟩

/-- What the register-bank operation at the inputs stores (R331 part 10). -/
def rbStores (p : Params) (inp : TickInput) (h : HostRegs) : HostRegs :=
  match inp.rbOp with
  | .none => h
  | .read _ => h
  | .write idx d =>
    if idx.toNat = 1 then { h with arm := d.getLsbD 0 }
    else if idx.toNat = 2 then { h with force := d.getLsbD 0 }
    else if idx.toNat = 3 then { h with flushCap := d.getLsbD 0 }
    else if idx.toNat = 4 then { h with flushSch := d.getLsbD 0 }
    else if idx.toNat = 6 then { h with riseEn := truncTo p.nch d }
    else if idx.toNat = 7 then { h with fallEn := truncTo p.nch d }
    else if idx.toNat = 8 then { h with outEn := truncTo p.nch d }
    else if idx.toNat = 13 then { h with schedTime := truncTo p.tw d }
    else if idx.toNat = 14 then { h with schedData := truncTo p.nch d }
    else h

/-- What the fast-bus request at the inputs stores if it is accepted (R331 part 11). -/
def fbStores (s : State) (inp : TickInput) (h : HostRegs) : HostRegs :=
  if fbWrites s inp 4 then { h with schedTime := truncTo s.params.tw inp.fbWdata }
  else if fbWrites s inp 5 then { h with schedData := truncTo s.params.nch inp.fbWdata }
  else h

/-! ## The engine's rules of a tick -/

/-- The strobes of a tick: counter zero, pop of the Capture Queue, push of the Schedule Queue. -/
structure Strobes where
  zero : Bool
  pop  : Bool
  push : Bool
deriving DecidableEq, Repr

/-- The strobes both views give in this tick (R331 part 1). -/
def strobesOf (s : State) (inp : TickInput) : Strobes where
  zero := rbWrites inp 0
  pop  := rbWrites inp 12 || fbWrites s inp 3
  push := rbWrites inp 15 || fbWrites s inp 6

/-- Phase `k` of channel `c` differs from the remembered level (R158). -/
abbrev Differs (s : State) (inp : TickInput) (c k : Nat) : Prop :=
  k < s.params.variant.osf ∧ sampleAt inp c k ≠ s.level.getLsbD c

/-- Some sample of channel `c` differs from its remembered level. -/
abbrev Transition (s : State) (inp : TickInput) (c : Nat) : Prop := ∃ k, Differs s inp c k

/-- The direction of the transition is enabled (R156). -/
abbrev Enabled (s : State) (c : Nat) : Prop :=
  (s.level.getLsbD c = true ∧ s.fallEn.getLsbD c = true) ∨
  (s.level.getLsbD c = false ∧ s.riseEn.getLsbD c = true)

/-- Channel `c` detects (R157, R158). -/
abbrev Detects (s : State) (inp : TickInput) (c : Nat) : Prop :=
  c < s.params.nch ∧ Transition s inp c ∧ Enabled s c

/-- Channel `c` wins the tie-break (R191). -/
abbrev Wins (s : State) (inp : TickInput) (c : Nat) : Prop :=
  Detects s inp c ∧ ∀ b, b < c → ¬ Detects s inp b

/-- `k` is the earliest phase of channel `c` that differs (R158, R164). -/
abbrev FirstPhase (s : State) (inp : TickInput) (c k : Nat) : Prop :=
  Differs s inp c k ∧ ∀ j, j < k → ¬ Differs s inp c j

/-- The capture-overflow condition signal (R356). -/
abbrev Overflows (s : State) (inp : TickInput) : Prop :=
  Running s inp ∧ (∃ c, Detects s inp c) ∧ s.params.capDepth ≤ s.capq.length

/-- `fire` (R241). -/
abbrev Fires (s : State) : Prop := ∃ r ∈ s.schq.head?, r.cycle = s.counter

/-- The Capture Queue after the pop of a tick (R210, R213). -/
def poppedCapq (s : State) (pop : Bool) : List CaptureRecord :=
  if pop || s.flushCap then s.capq.tail else s.capq

/-- The record a push takes: the fields of the schedule-input registers (R246). -/
def IsScheduled (s : State) (r : ScheduleRecord) : Prop :=
  r.cycle.toNat = s.schedTime.toNat / 2 ^ s.params.variant.subw % 2 ^ s.params.w ∧
  r.sub.toNat = s.schedTime.toNat % 2 ^ s.params.variant.subw ∧
  r.levels = s.schedData

/-- The steady level of channel `c`: the level its line holds at the end of the last tick (R178). -/
def steadyLevel (s : State) (c : Nat) : Bool :=
  (lane s.outvec c).getLsbD (s.params.variant.osf - 1)

/-- The level the output vector of channel `c` has at phase `k` of this tick (R177, R178, R179): the
commanded level from the commanded phase on if the head fires, else the steady level. -/
def outLevel (s : State) (c k : Nat) : Bool :=
  match s.schq.head? with
  | none => steadyLevel s c
  | some r =>
    if r.cycle = s.counter ∧ r.sub.toNat % s.params.variant.osf ≤ k then r.levels.getLsbD c
    else steadyLevel s c

/-- The engine's rules of a tick without reset (R331 parts 2 to 9): what they make of `S_t` under the
strobes `x`. -/
structure EngineRules (s : State) (inp : TickInput) (x : Strobes) (t : State) : Prop where
  /-- nothing changes the construction (R394) -/
  params : t.params = s.params
  /-- a level flips where a sample differs, and only there (R158, R159, R160) -/
  level : ∀ c, c < s.params.nch → (t.level.getLsbD c ≠ s.level.getLsbD c ↔ Transition s inp c)
  levelRange : ∀ c, s.params.nch ≤ c → t.level.getLsbD c = false
  /-- the counter (R227) -/
  counter : t.counter.toNat =
    if x.zero then 0
    else if Running s inp then (s.counter.toNat + 1) % 2 ^ s.params.w
    else s.counter.toNat
  /-- a capture into a queue with room (R192, R193, R210) -/
  captured : ∀ c, Running s inp → Wins s inp c → s.capq.length < s.params.capDepth →
    ∃ k, FirstPhase s inp c k ∧
      t.capq = poppedCapq s x.pop ++ [⟨s.counter, BitVec.ofNat 3 k, t.level⟩]
  /-- no capture, or a full queue: nothing is pushed (R192, R208, R212) -/
  notCaptured : (¬ Running s inp ∨ (∀ c, ¬ Detects s inp c) ∨ s.params.capDepth ≤ s.capq.length) →
    t.capq = poppedCapq s x.pop
  /-- a push into a Schedule Queue with room (R210, R244, R246) -/
  pushed : x.push = true → s.schq.length < s.params.schDepth →
    ∃ r, IsScheduled s r ∧
      t.schq = (if Fires s ∨ s.flushSch = true then s.schq.tail else s.schq) ++ [r]
  /-- no push, or a full queue (R210, R216, R242, R244) -/
  notPushed : (x.push = false ∨ s.params.schDepth ≤ s.schq.length) →
    t.schq = if Fires s ∨ s.flushSch = true then s.schq.tail else s.schq
  /-- the output vectors (R177, R178, R179, R243) -/
  outvec : ∀ c k, c < s.params.nch → k < s.params.variant.osf →
    (lane t.outvec c).getLsbD k = outLevel s c k
  /-- the last values of the condition signals (R358) -/
  prevOf : t.prevOf = true ↔ Overflows s inp
  prevUf : t.prevUf = true ↔ (s.flushSch = true ∧ ¬ Fires s)
  prevRunning : t.prevRunning = true ↔ Running s inp
  /-- the pending bits (R357, R359) -/
  pendOf : t.pendOf = true ↔
    (s.pendOf = true ∧ inp.evClear.getLsbD 2 = false) ∨ (Overflows s inp ∧ s.prevOf = false)
  pendUf : t.pendUf = true ↔
    (s.pendUf = true ∧ inp.evClear.getLsbD 3 = false) ∨
    ((s.flushSch = true ∧ ¬ Fires s) ∧ s.prevUf = false)
  pendStarted : t.pendStarted = true ↔
    (s.pendStarted = true ∧ inp.evClear.getLsbD 4 = false) ∨
    (Running s inp ∧ s.prevRunning = false)
  pendStopped : t.pendStopped = true ↔
    (s.pendStopped = true ∧ inp.evClear.getLsbD 5 = false) ∨
    (¬ Running s inp ∧ s.prevRunning = true)

/-- The outputs of a tick without reset (R332), but for `rb_rdata`. -/
structure OutputRules (s : State) (inp : TickInput) (x : Strobes) (t : State) : Prop where
  outVec : t.out.outVec = t.outvec
  oeN : ∀ c, t.out.oeN.getLsbD c = (decide (c < s.params.nch) && !s.outEn.getLsbD c)
  captureReadable : t.out.ev.getLsbD 0 = true ↔ s.capq ≠ []
  scheduleWritable : t.out.ev.getLsbD 1 = true ↔ s.schq.length < s.params.schDepth
  captureOverflow : t.out.ev.getLsbD 2 = s.pendOf
  scheduleUnderflow : t.out.ev.getLsbD 3 = s.pendUf
  started : t.out.ev.getLsbD 4 = s.pendStarted
  stopped : t.out.ev.getLsbD 5 = s.pendStopped
  counterWrap : t.out.ev.getLsbD 6 = true ↔
    Running s inp ∧ x.zero = false ∧ s.counter.toNat = 2 ^ s.params.w - 1
  fbAck : t.out.fbAck = s.fbAck
  fbRdata : t.out.fbRdata = s.fbRdata

/-- A value a view can read from `CAP_TIME` in this tick: the head's timestamp word; of an empty queue, any
value of the register's width (R211, R277, R305). -/
def CapTimeReads (s : State) (v : Word) : Prop :=
  match s.capq.head? with
  | none => Fits s.params.tw v
  | some r => v = timestampWord s.params r.cycle r.sub

/-- A value a view can read from `CAP_DATA` in this tick (R211, R279, R307). -/
def CapDataReads (s : State) (v : Word) : Prop :=
  match s.capq.head? with
  | none => Fits s.params.nch v
  | some r => v = r.levels

/-- A value a register-bank read of index `idx` can return in this tick (R257 to R289). -/
def RbReturns (s : State) (idx : Nat) (v : Word) : Prop :=
  if idx = 1 then v = bitWord s.arm
  else if idx = 2 then v = bitWord s.force
  else if idx = 3 then v = bitWord s.flushCap
  else if idx = 4 then v = bitWord s.flushSch
  else if idx = 5 then v = s.level
  else if idx = 6 then v = s.riseEn
  else if idx = 7 then v = s.fallEn
  else if idx = 8 then v = s.outEn
  else if idx = 9 then v = s.counter
  else if idx = 10 then CapTimeReads s v
  else if idx = 11 then CapDataReads s v
  else if idx = 13 then v = s.schedTime
  else if idx = 14 then v = s.schedData
  else v = 0#32

/-- A value a fast-bus read of low address byte `adr` can return in this tick (R303 to R317). -/
def FbReturns (s : State) (adr : Nat) (v : Word) : Prop :=
  if adr = 0 then v = s.counter
  else if adr = 1 then CapTimeReads s v
  else if adr = 2 then CapDataReads s v
  else if adr = 4 then v = s.schedTime
  else if adr = 5 then v = s.schedData
  else v = 0#32

/-- The register-bank read of a tick without reset (R255, R290): a value if the view reads, none else. -/
structure RegBankRules (s : State) (inp : TickInput) (t : State) : Prop where
  read : ∀ idx, rbReads inp idx = true → ∃ v, t.out.rbRdata = some v ∧ RbReturns s idx v
  none : (∀ idx, rbReads inp idx = false) → t.out.rbRdata = none

/-- The fast-bus registers after a tick without reset (R301, R303 to R317): an acknowledge exactly after
an accepted request, and read data exactly after an accepted read. -/
structure FastBusRules (s : State) (inp : TickInput) (t : State) : Prop where
  ack : t.fbAck = fbAccepts s inp
  read : ∀ adr, fbReads s inp adr = true → FbReturns s adr t.fbRdata
  none : (∀ adr, fbReads s inp adr = false) → t.fbRdata = 0#32

/-- A tick without reset and without hazard, but for what the register-bank read returns: the engine's
rules, the outputs, the model's own fields. -/
structure TickRules (s : State) (x : Strobes) (t : State) : Prop where
  engine : EngineRules s (currentInput s) x t
  outputs : OutputRules s (currentInput s) x t
  inputs : t.inputs = s.inputs.tail

/-- A tick in which the register-bank view performs an operation of its own strobes `x`, with the storage
registers it leaves `regs` and its read value `rdata`, the fast-bus view doing what the inputs say. -/
structure RbTick (s : State) (x : Strobes) (regs : HostRegs) (rdata : Option Word) (t : State) : Prop where
  rules : TickRules s ⟨x.zero, x.pop || fbWrites s (currentInput s) 3,
    x.push || fbWrites s (currentInput s) 6⟩ t
  regs : hostRegs t = fbStores s (currentInput s) regs
  rdata : t.out.rbRdata = rdata
  fastBus : FastBusRules s (currentInput s) t

/-- A tick in which the fast-bus view has a request accepted whose strobes are `x`, with the storage
registers it leaves `regs` and its read value `rdata` (0 for a write), the register-bank view doing what the
inputs say. -/
structure FbTick (s : State) (x : Strobes) (regs : HostRegs) (rdata : Word) (t : State) : Prop where
  rules : TickRules s ⟨rbWrites (currentInput s) 0 || x.zero, rbWrites (currentInput s) 12 || x.pop,
    rbWrites (currentInput s) 15 || x.push⟩ t
  regs : hostRegs t = rbStores s.params (currentInput s) regs
  ack : t.fbAck = true
  rdata : t.fbRdata = rdata
  regBank : RegBankRules s (currentInput s) t

/-- No strobe. -/
abbrev noStrobe : Strobes := ⟨false, false, false⟩

/-- Both views act on one resource in this tick and one of them writes it: the pairs of R406. -/
abbrev HazardTick (s : State) (inp : TickInput) : Prop :=
  (rbWrites inp 0 = true ∧ fbReads s inp 0 = true) ∨
  (rbWrites inp 12 = true ∧ (fbReads s inp 1 = true ∨ fbReads s inp 2 = true ∨ fbWrites s inp 3 = true)) ∨
  ((rbReads inp 10 = true ∨ rbReads inp 11 = true) ∧ fbWrites s inp 3 = true) ∨
  (rbWrites inp 13 = true ∧ (fbReads s inp 4 = true ∨ fbWrites s inp 4 = true ∨ fbWrites s inp 6 = true)) ∨
  ((rbReads inp 13 = true ∨ rbWrites inp 15 = true) ∧ fbWrites s inp 4 = true) ∨
  (rbWrites inp 14 = true ∧ (fbReads s inp 5 = true ∨ fbWrites s inp 5 = true ∨ fbWrites s inp 6 = true)) ∨
  ((rbReads inp 14 = true ∨ rbWrites inp 15 = true) ∧ fbWrites s inp 5 = true) ∨
  (rbWrites inp 15 = true ∧ fbWrites s inp 6 = true)

/-! ## The invariant -/

/-- An output vector with at most one transition in the tick (R183). -/
abbrev OneTransition (v : Variant) (vec : Samples) : Prop :=
  (v = .high → ∃ b ∈ [false, true], ∃ k ∈ List.range 8, vec = rep8 b ^^^ edgeMask (BitVec.ofNat 3 k)) ∧
  (v = .low → ∃ b ∈ [false, true], vec = bit8 b)

/-- The fields of a record have their widths (R30, R31). -/
abbrev RecordFits (p : Params) (cycle : Word) (sub : Subcycle) (levels : Word) : Prop :=
  Fits p.w cycle ∧ sub.toNat < p.variant.osf ∧ Fits p.nch levels

/-- The per-channel bitmaps have no bit from `NCH` on (R103). -/
abbrev BitmapsFit (s : State) : Prop :=
  Fits s.params.nch s.level ∧ Fits s.params.nch s.riseEn ∧ Fits s.params.nch s.fallEn ∧
  Fits s.params.nch s.outEn ∧ Fits s.params.nch s.schedData

/-- The queues hold at most their capacity, of records with fields of their widths (R30, R31, R338 (a)). -/
abbrev QueuesFit (s : State) : Prop :=
  s.capq.length ≤ s.params.capDepth ∧ s.schq.length ≤ s.params.schDepth ∧
  (∀ r ∈ s.capq, RecordFits s.params r.cycle r.sub r.levels) ∧
  (∀ r ∈ s.schq, RecordFits s.params r.cycle r.sub r.levels)

/-- The output vectors: at most one transition each (R338 (b)), and nothing where there is no channel. -/
abbrev OutputsFit (s : State) : Prop :=
  (∀ c ∈ List.range 32, c < s.params.nch → OneTransition s.params.variant (lane s.outvec c)) ∧
  (∀ c ∈ List.range 32, s.params.nch ≤ c → lane s.outvec c = 0#8)

/-- The invariant of every state of a run: legal construction, every value in its width, bounded queues,
output vectors of one transition, and read data only beside an acknowledge (R301). -/
abbrev Inv (s : State) : Prop :=
  s.params.Valid ∧ BitmapsFit s ∧ Fits s.params.w s.counter ∧ Fits s.params.tw s.schedTime ∧
  QueuesFit s ∧ OutputsFit s ∧ (s.fbAck = false → s.fbRdata = 0#32)

/-- The inputs of a tick ask nothing of the block through either view and do not reset it. Lines, trigger
and clear requests are free. -/
abbrev NoHostOp (inp : TickInput) : Prop := inp.rst = false ∧ inp.rbOp = .none ∧ inp.fbReq = false

/-- The state holds the inputs of at least `n` ticks, and none of them has a host operation. -/
abbrev LeftAlone (n : Nat) (s : State) : Prop :=
  n ≤ s.inputs.length ∧ ∀ inp ∈ s.inputs.take n, NoHostOp inp

/-! ## Runs -/

/-- The level channel `c` has at an instant, counted in phases from count 0: that of the last record of the
Schedule Queue that is due by then, and the steady level where none is (R185). -/
def dueLevel (s : State) (c time : Nat) : Bool :=
  match (s.schq.filter fun r => decide (r.cycle.toNat * s.params.variant.osf + r.sub.toNat ≤ time)).getLast? with
  | none => steadyLevel s c
  | some r => r.levels.getLsbD c

/-- The counts of the captures rise in queue order and lie below the counter, or at it while it stands
still (R338 (e)). -/
abbrev CapturesOrdered (s : State) : Prop :=
  (s.capq.map fun r => r.cycle.toNat).Pairwise (· ≤ ·) ∧ ∀ r ∈ s.capq, r.cycle.toNat ≤ s.counter.toNat

/-- The queue holds records in strictly rising cycles, none before the counter (R185, R247). -/
abbrev ScheduleAhead (s : State) : Prop :=
  (s.schq.map fun r => r.cycle.toNat).Pairwise (· < ·) ∧ ∀ r ∈ s.schq, s.counter.toNat ≤ r.cycle.toNat

end Sys2Proof.Safety
end

