-- ==== Sys2Proof/Certificates/Slice0/Obligations.lean ====
section
/-! DEFINITION. The statements for the provers, in the terms of Safety.lean. The parameters of the block are
data of the state: every statement holds for every legal construction (spec/00_scope.md R8), not for the
reset instance alone. -/

open Sys2Proof Sys2Proof.Machine Sys2Proof.Config Sys2Proof.Safety

/-! ## Encodings -/

/-- Decoding what the encoder writes for a well-formed operation gives it back, every operand at every
value its encoding admits (R100, R101, R110, R115). -/
def Obligations.DecodeOfEncode : Prop :=
  ∀ i : Instr, i.wellFormed = true → decode (encode i).1 (encode i).2 = .ok i

/-- Whatever the decoder accepts is a well-formed operation of its view, encoded with the same key; a write
is encoded with the same data word too (R100, R101). -/
def Obligations.EncodeOfDecode : Prop :=
  ∀ (v : View) (bytes : List Byte) (i : Instr), decode v bytes = .ok i →
    i.wellFormed = true ∧ i.view = v ∧ (encode i).1 = v ∧ requestKey (encode i) = requestKey (v, bytes) ∧
    ((v = .regBank ∧ 32 ≤ requestKey (v, bytes)) ∨ (v = .fastBus ∧ 256 ≤ requestKey (v, bytes)) →
      encode i = (v, bytes))

/-- The decoder is the look-up of R120 in the opcode table: full masks first, then the reserved rows. -/
def Obligations.DecoderFollowsOpcodeTable : Prop :=
  (rbRows ++ fbRows).length = 50 ∧
  (∀ (key : BitVec 6) (d : Word),
    (lookUp rbRows key.toNat).map OpcodeRow.mnemonic = some (decodeRb key d).mnemonic) ∧
  (∀ (key : BitVec 9) (d : Word),
    (lookUp fbRows key.toNat).map OpcodeRow.mnemonic = some (decodeFb key d).mnemonic)

/-- The key of every well-formed operation looks up its own row. -/
def Obligations.EncodeFollowsOpcodeTable : Prop :=
  ∀ i : Instr, Sys2Proof.Laws.EncodeFollowsTable.Statement i

/-- A few requests written out byte by byte from the encodings of R257 to R317. -/
def Obligations.SampleRequestsDecode : Prop :=
  decode .regBank [0x20#8, 0x00#8, 0x00#8, 0x00#8, 0x00#8] = .ok (.rbWrCounterZero 0x00000000#32) ∧
  decode .regBank [0x26#8, 0x05#8, 0x00#8, 0x00#8, 0x00#8] = .ok (.rbWrRisingEn 0x00000005#32) ∧
  decode .regBank [0x0A#8, 0x00#8, 0x00#8, 0x00#8, 0x00#8] = .ok .rbRdCapTime ∧
  decode .regBank [0x2D#8, 0x42#8, 0x01#8, 0x00#8, 0x00#8] = .ok (.rbWrSchedTime 322#32) ∧
  decode .regBank [0x34#8, 0x78#8, 0x56#8, 0x34#8, 0x12#8] = .ok (.rbWrReserved 20#5 0x12345678#32) ∧
  decode .fastBus [0x01#8, 0x00#8, 0x00#8, 0x00#8, 0x00#8, 0x00#8] = .ok .fbRdCapTime ∧
  decode .fastBus [0x04#8, 0x01#8, 0x57#8, 0x01#8, 0x00#8, 0x00#8] = .ok (.fbWrSchedTime 343#32) ∧
  decode .fastBus [0x40#8, 0x00#8, 0x00#8, 0x00#8, 0x00#8, 0x00#8] = .ok (.fbRdReserved 0x40#8)

/-! ## From the ports to the meaning -/

/-- A step runs the operation the ports present: the register-bank operation, else the fast-bus request,
else the tick without one; the operation is well-formed and is the one the decoder reads from the request's
bytes (R100, R101, R120). -/
def Obligations.StepRunsDecodedOperation : Prop :=
  (∀ (s : State) (idx : BitVec 5) (d : Word) (i : Instr),
    (currentInput s).rbOp = .write idx d →
    decode .regBank ((1#1 ++ idx).setWidth 8 :: bytesOfWord d) = .ok i →
    i.wellFormed = true ∧ step s = exec i s) ∧
  (∀ (s : State) (idx : BitVec 5) (d : Word) (i : Instr),
    (currentInput s).rbOp = .read idx →
    decode .regBank ((0#1 ++ idx).setWidth 8 :: bytesOfWord d) = .ok i →
    i.wellFormed = true ∧ step s = exec i s) ∧
  (∀ (s : State) (i : Instr),
    (currentInput s).rbOp = .none → (currentInput s).fbReq = true →
    decode .fastBus (lowByte (currentInput s).fbAdr ::
      (BitVec.ofBool (currentInput s).fbWe).setWidth 8 :: bytesOfWord (currentInput s).fbWdata) = .ok i →
    i.wellFormed = true ∧ step s = exec i s) ∧
  (∀ s : State, (currentInput s).rbOp = .none → (currentInput s).fbReq = false → step s = idleTick s)

/-- The meaning of the register-bank operation and that of the fast-bus request of one tick are the same
tick: it does not matter through which the step goes (R81, R331). -/
def Obligations.EitherViewGivesTheSameTick : Prop :=
  ∀ (s : State) (i j : Instr), rbInstrOf (currentInput s).rbOp = some i →
    fbInstrOf (currentInput s) = some j → exec i s = exec j s ∧ step s = exec i s

/-- A request placed with `withFetchWord` is the one operation of the very next tick, with no reset and a
fast-bus request accepted. The model's own loader: log entry 4. -/
def Obligations.PlacedRequestRuns : Prop :=
  ∀ (s : State) (nbits w : Nat) (i : Instr), decodeTableWord nbits w = some i →
    presentedInstr (s.withFetchWord nbits w) = some i ∧
    step (s.withFetchWord nbits w) = exec i (s.withFetchWord nbits w) ∧
    (currentInput (s.withFetchWord nbits w)).rst = false ∧
    (i.view = .regBank → (currentInput (s.withFetchWord nbits w)).fbReq = false) ∧
    (i.view = .fastBus → (currentInput (s.withFetchWord nbits w)).rbOp = .none ∧
      (s.withFetchWord nbits w).fbAck = false)

/-- Only the low byte of the fast-bus address is decoded (R319). -/
def Obligations.FastBusAddressAliases : Prop :=
  ∀ (s : State) (inp : TickInput) (rest : List TickInput) (n : Nat), s.inputs = inp :: rest →
    step { s with inputs := { inp with fbAdr := inp.fbAdr % 256 + 256 * n } :: rest } = step s

/-! ## The tick -/

/-- The transition of one tick (R331), with the outputs of R332 where there is no reset: reset first; a tick
without a hazard has a next state, given by the rules of the engine, the storage writes of both views, and
the fast-bus registers. R331 gives a hazard tick no successor. That `rb_rdata` is `none` in a tick without a
register-bank read is the model's choice: log entry 5. -/
def Obligations.TickFollowsTransition : Prop :=
  ∀ s : State, s.params.Valid →
    ((currentInput s).rst = true → ∃ t, step s = .next t ∧
      t = { State.resetOf s.params with out := t.out, inputs := t.inputs, draws := t.draws }) ∧
    ((currentInput s).rst = false → ¬ HazardTick s (currentInput s) → ∃ t, step s = .next t ∧
      TickRules s (strobesOf s (currentInput s)) t ∧
      hostRegs t = rbStores s.params (currentInput s) (fbStores s (currentInput s) (hostRegs s)) ∧
      RegBankRules s (currentInput s) t ∧ FastBusRules s (currentInput s) t)

/-- A tick with `rst = 1` gives the reset state of the block as it was built, whatever operation is
presented through either view; nothing of the tick is performed (R390: the spec's own decision D6). -/
def Obligations.ResetTickGivesResetState : Prop :=
  ∀ s : State, (currentInput s).rst = true →
    (∃ t, step s = .next t ∧ t = { State.resetOf s.params with
      out := t.out, inputs := s.inputs.tail, draws := t.draws }) ∧
    (∀ i : Instr, ∃ t, exec i s = .next t ∧ t = { State.resetOf s.params with
      out := t.out, inputs := s.inputs.tail, draws := t.draws })

/-- The outputs of a reset tick: the condition lines 0 to 5 and the fast-bus registers show `S_t`, the output
vectors their reset value (R392: the spec's own decision D6), and `oe_n` the negated enables of `S_t`, as in
every tick (R180). Line 6 is left to log entry 8. -/
def Obligations.ResetTickOutputs : Prop :=
  ∀ s t : State, s.params.Valid → (currentInput s).rst = true → step s = .next t →
    t.out.outVec = Vector.replicate 32 0#8 ∧ t.out.fbAck = s.fbAck ∧ t.out.fbRdata = s.fbRdata ∧
    (∀ c, t.out.oeN.getLsbD c = (decide (c < s.params.nch) && !s.outEn.getLsbD c)) ∧
    (t.out.ev.getLsbD 0 = true ↔ s.capq ≠ []) ∧
    (t.out.ev.getLsbD 1 = true ↔ s.schq.length < s.params.schDepth) ∧
    t.out.ev.getLsbD 2 = s.pendOf ∧ t.out.ev.getLsbD 3 = s.pendUf ∧
    t.out.ev.getLsbD 4 = s.pendStarted ∧ t.out.ev.getLsbD 5 = s.pendStopped

/-- The reset state (R391, R40, R41 and, for the values the source omits, the spec's own decision D5 in
R42) and what the block shows in the first tick from it, whatever the
inputs: it does not run, no condition line but schedule-writable is 1, no output is driven, every output
vector is 0. -/
def Obligations.ResetStateIsAsStated : Prop :=
  ∀ p : Params, p.Valid → ∀ (inputs : List TickInput) (s : State),
    s = { State.resetOf p with inputs := inputs } →
    s.params = p ∧ s.counter = 0#32 ∧ s.capq = [] ∧ s.schq = [] ∧ s.arm = false ∧ s.force = false ∧
    hostRegs s = ⟨false, false, false, false, 0#32, 0#32, 0#32, 0#32, 0#32⟩ ∧ s.level = 0#32 ∧
    (∀ c, lane s.outvec c = 0#8) ∧ s.pendOf = false ∧ s.pendUf = false ∧ s.pendStarted = false ∧
    s.pendStopped = false ∧ s.prevOf = false ∧ s.prevUf = false ∧ s.prevRunning = false ∧
    s.fbAck = false ∧ s.fbRdata = 0#32 ∧ running s (currentInput s) = false ∧
    (∀ t, step s = .next t → t.out.ev = 0b0000010#7 ∧ (∀ c, lane t.out.outVec c = 0#8) ∧
      ∀ c, c < p.nch → t.out.oeN.getLsbD c = true)

/-- The hazard pairs (R406): a tick without reset stops exactly where both views act on one resource and one
of them writes it. -/
def Obligations.HazardPairsStopTheTick : Prop :=
  ∀ s : State, (currentInput s).rst = false →
    ((∃ a b, step s = .fault (.dualViewRace a b)) ↔ HazardTick s (currentInput s))

/-- An operation stops in no other way than by a race with an operation of the other view, and it does stop
there, naming both (R365, R405, R407). The fault is the model's form of R407: log entry 7. -/
def Obligations.OnlyARaceStops : Prop :=
  ∀ (i : Instr) (s : State),
    ((∃ t, exec i s = .next t) ∨
      ((currentInput s).rst = false ∧ s.fbAck = false ∧ ∃ a b, exec i s = .fault (.dualViewRace a b) ∧
        (i = a ∨ i = b) ∧ a.view = .regBank ∧ b.view = .fastBus ∧ collide a b = true)) ∧
    (∀ j, (currentInput s).rst = false → s.fbAck = false → i.view = .regBank →
      fbInstrOf (currentInput s) = some j → collide i j = true →
      exec i s = .fault (.dualViewRace i j)) ∧
    (∀ j, (currentInput s).rst = false → s.fbAck = false → i.view = .fastBus →
      rbInstrOf (currentInput s).rbOp = some j → collide j i = true →
      exec i s = .fault (.dualViewRace j i))

/-! ## Invariants -/

/-- Every operation and every step keep the invariant: values in their widths, queues within their capacity
(R338 (a)), output vectors of at most one transition (R183, R338 (b)), read data only beside an acknowledge
(R301). -/
def Obligations.EveryStepKeepsInvariant : Prop :=
  ∀ s t : State, Inv s → (step s = .next t ∨ ∃ i : Instr, exec i s = .next t) → Inv t

/-- The reset state of every legal construction has the invariant. -/
def Obligations.ResetHasInvariant : Prop :=
  Inv State.reset ∧ ∀ p : Params, p.Valid → Inv (State.resetOf p)

/-- The acknowledge is never 1 in two consecutive ticks, and it follows an accepted request at once
(R300, R301, R338 (c)). -/
def Obligations.AcknowledgeLastsOneTick : Prop :=
  ∀ s t : State, step s = .next t →
    (s.fbAck = true → t.fbAck = false) ∧
    (s.fbAck = false → (currentInput s).rst = false → t.fbAck = (currentInput s).fbReq)

/-- Between two zero strobes, resets and wraps the captured counts never fall in queue order (R338 (e)). -/
def Obligations.CaptureCountsStayOrdered : Prop :=
  ∀ s t : State, s.params.Valid → Fits s.params.w s.counter → CapturesOrdered s →
    (currentInput s).rst = false → (strobesOf s (currentInput s)).zero = false →
    ¬ (Running s (currentInput s) ∧ s.counter.toNat = 2 ^ s.params.w - 1) →
    step s = .next t → CapturesOrdered t

/-! ## The register-bank view -/

/-- Writes of the one-bit control registers (R259, R261, R263, R265). -/
def Obligations.ControlBitWritesComplete : Prop :=
  ∀ (s : State) (d : Word), s.params.Valid → (currentInput s).rst = false →
    (requestKey (encode (.rbWrArm d)) = 0x21 ∧ ∃ t, exec (.rbWrArm d) s = .next t ∧
      RbTick s noStrobe { hostRegs s with arm := d.getLsbD 0 } none t) ∧
    (requestKey (encode (.rbWrForce d)) = 0x22 ∧ ∃ t, exec (.rbWrForce d) s = .next t ∧
      RbTick s noStrobe { hostRegs s with force := d.getLsbD 0 } none t) ∧
    (requestKey (encode (.rbWrFlushCapture d)) = 0x23 ∧ ∃ t, exec (.rbWrFlushCapture d) s = .next t ∧
      RbTick s noStrobe { hostRegs s with flushCap := d.getLsbD 0 } none t) ∧
    (requestKey (encode (.rbWrFlushSchedule d)) = 0x24 ∧ ∃ t, exec (.rbWrFlushSchedule d) s = .next t ∧
      RbTick s noStrobe { hostRegs s with flushSch := d.getLsbD 0 } none t)

/-- Writes of the enable bitmaps (R269, R271, R273). -/
def Obligations.EnableWritesComplete : Prop :=
  ∀ (s : State) (d : Word), s.params.Valid → (currentInput s).rst = false →
    (requestKey (encode (.rbWrRisingEn d)) = 0x26 ∧ ∃ t, exec (.rbWrRisingEn d) s = .next t ∧
      RbTick s noStrobe { hostRegs s with riseEn := truncTo s.params.nch d } none t) ∧
    (requestKey (encode (.rbWrFallingEn d)) = 0x27 ∧ ∃ t, exec (.rbWrFallingEn d) s = .next t ∧
      RbTick s noStrobe { hostRegs s with fallEn := truncTo s.params.nch d } none t) ∧
    (requestKey (encode (.rbWrOutputEn d)) = 0x28 ∧ ∃ t, exec (.rbWrOutputEn d) s = .next t ∧
      RbTick s noStrobe { hostRegs s with outEn := truncTo s.params.nch d } none t)

/-- Writes of the schedule-input registers; the race with the fast bus is excluded (R283, R285, R406). -/
def Obligations.RbScheduleInputWritesComplete : Prop :=
  ∀ (s : State) (d : Word), s.params.Valid → (currentInput s).rst = false →
    fbWrites s (currentInput s) 6 = false →
    (requestKey (encode (.rbWrSchedTime d)) = 0x2D ∧
      (fbReads s (currentInput s) 4 = false → fbWrites s (currentInput s) 4 = false →
        ∃ t, exec (.rbWrSchedTime d) s = .next t ∧
          RbTick s noStrobe { hostRegs s with schedTime := truncTo s.params.tw d } none t)) ∧
    (requestKey (encode (.rbWrSchedData d)) = 0x2E ∧
      (fbReads s (currentInput s) 5 = false → fbWrites s (currentInput s) 5 = false →
        ∃ t, exec (.rbWrSchedData d) s = .next t ∧
          RbTick s noStrobe { hostRegs s with schedData := truncTo s.params.nch d } none t))

/-- The zero strobe: the counter is 0 afterwards whether the block runs or not, the wrap line of the tick is
0, nothing else is touched (R257). -/
def Obligations.CounterZeroCompletes : Prop :=
  ∀ (s : State) (d : Word), s.params.Valid → (currentInput s).rst = false →
    requestKey (encode (.rbWrCounterZero d)) = 0x20 ∧
    (fbReads s (currentInput s) 0 = false → ∃ t, exec (.rbWrCounterZero d) s = .next t ∧
      t.counter = 0#32 ∧ t.out.ev.getLsbD 6 = false ∧ RbTick s ⟨true, false, false⟩ (hostRegs s) none t)

/-- The pop strobe of the register-bank view (R281). -/
def Obligations.RbCaptureNextCompletes : Prop :=
  ∀ (s : State) (d : Word), s.params.Valid → (currentInput s).rst = false →
    requestKey (encode (.rbWrCapNext d)) = 0x2C ∧
    (fbReads s (currentInput s) 1 = false → fbReads s (currentInput s) 2 = false →
      fbWrites s (currentInput s) 3 = false →
      ∃ t, exec (.rbWrCapNext d) s = .next t ∧ RbTick s ⟨false, true, false⟩ (hostRegs s) none t)

/-- The push strobe of the register-bank view (R287). -/
def Obligations.RbScheduleNextCompletes : Prop :=
  ∀ (s : State) (d : Word), s.params.Valid → (currentInput s).rst = false →
    requestKey (encode (.rbWrSchedNext d)) = 0x2F ∧
    (fbWrites s (currentInput s) 4 = false → fbWrites s (currentInput s) 5 = false →
      fbWrites s (currentInput s) 6 = false →
      ∃ t, exec (.rbWrSchedNext d) s = .next t ∧ RbTick s ⟨false, false, true⟩ (hostRegs s) none t)

/-- Writes of the status registers are ignored: the tick is that of no register-bank operation (R268, R276,
R278, R280). -/
def Obligations.RbIgnoredWritesComplete : Prop :=
  ∀ (s : State) (d : Word), s.params.Valid → (currentInput s).rst = false →
    (requestKey (encode (.rbWrLevel d)) = 0x25 ∧ ∃ t, exec (.rbWrLevel d) s = .next t ∧
      RbTick s noStrobe (hostRegs s) none t) ∧
    (requestKey (encode (.rbWrCounter d)) = 0x29 ∧ ∃ t, exec (.rbWrCounter d) s = .next t ∧
      RbTick s noStrobe (hostRegs s) none t) ∧
    (requestKey (encode (.rbWrCapTime d)) = 0x2A ∧ ∃ t, exec (.rbWrCapTime d) s = .next t ∧
      RbTick s noStrobe (hostRegs s) none t) ∧
    (requestKey (encode (.rbWrCapData d)) = 0x2B ∧ ∃ t, exec (.rbWrCapData d) s = .next t ∧
      RbTick s noStrobe (hostRegs s) none t)

/-- Reads of the strobe registers return 0 and strobe nothing (R258, R282, R288: the spec's own decision
D17). -/
def Obligations.RbStrobeReadsComplete : Prop :=
  ∀ s : State, s.params.Valid → (currentInput s).rst = false →
    (requestKey (encode .rbRdCounterZero) = 0x00 ∧ ∃ t, exec .rbRdCounterZero s = .next t ∧
      RbTick s noStrobe (hostRegs s) (some 0#32) t) ∧
    (requestKey (encode .rbRdCapNext) = 0x0C ∧ ∃ t, exec .rbRdCapNext s = .next t ∧
      RbTick s noStrobe (hostRegs s) (some 0#32) t) ∧
    (requestKey (encode .rbRdSchedNext) = 0x0F ∧ ∃ t, exec .rbRdSchedNext s = .next t ∧
      RbTick s noStrobe (hostRegs s) (some 0#32) t)

/-- Reserved indices: a read returns 0, a write does nothing (R125, R289: the spec's own decision D18). -/
def Obligations.RbReservedCompletes : Prop :=
  ∀ (s : State) (idx : BitVec 5) (d : Word), s.params.Valid → (currentInput s).rst = false →
    16 ≤ idx.toNat →
    (requestKey (encode (.rbRdReserved idx)) = idx.toNat ∧
      ∃ t, exec (.rbRdReserved idx) s = .next t ∧ RbTick s noStrobe (hostRegs s) (some 0#32) t) ∧
    (requestKey (encode (.rbWrReserved idx d)) = 0x20 + idx.toNat ∧
      ∃ t, exec (.rbWrReserved idx d) s = .next t ∧ RbTick s noStrobe (hostRegs s) none t)

/-- Reads of the storage registers return what is stored (R260, R262, R264, R266, R270, R272, R274: the
spec's own decision D17, spec/92_eei_decisions.md). -/
def Obligations.StorageReadsComplete : Prop :=
  ∀ s : State, s.params.Valid → (currentInput s).rst = false →
    (requestKey (encode .rbRdArm) = 0x01 ∧ ∃ t, exec .rbRdArm s = .next t ∧
      RbTick s noStrobe (hostRegs s) (some (if s.arm then 1#32 else 0#32)) t) ∧
    (requestKey (encode .rbRdForce) = 0x02 ∧ ∃ t, exec .rbRdForce s = .next t ∧
      RbTick s noStrobe (hostRegs s) (some (if s.force then 1#32 else 0#32)) t) ∧
    (requestKey (encode .rbRdFlushCapture) = 0x03 ∧ ∃ t, exec .rbRdFlushCapture s = .next t ∧
      RbTick s noStrobe (hostRegs s) (some (if s.flushCap then 1#32 else 0#32)) t) ∧
    (requestKey (encode .rbRdFlushSchedule) = 0x04 ∧ ∃ t, exec .rbRdFlushSchedule s = .next t ∧
      RbTick s noStrobe (hostRegs s) (some (if s.flushSch then 1#32 else 0#32)) t) ∧
    (requestKey (encode .rbRdRisingEn) = 0x06 ∧ ∃ t, exec .rbRdRisingEn s = .next t ∧
      RbTick s noStrobe (hostRegs s) (some s.riseEn) t) ∧
    (requestKey (encode .rbRdFallingEn) = 0x07 ∧ ∃ t, exec .rbRdFallingEn s = .next t ∧
      RbTick s noStrobe (hostRegs s) (some s.fallEn) t) ∧
    (requestKey (encode .rbRdOutputEn) = 0x08 ∧ ∃ t, exec .rbRdOutputEn s = .next t ∧
      RbTick s noStrobe (hostRegs s) (some s.outEn) t)

/-- Reads of the levels and of the counter return their value in `S_t` (R267, R275). -/
def Obligations.RbWordReadsComplete : Prop :=
  ∀ s : State, s.params.Valid → (currentInput s).rst = false →
    (requestKey (encode .rbRdLevel) = 0x05 ∧ ∃ t, exec .rbRdLevel s = .next t ∧
      RbTick s noStrobe (hostRegs s) (some s.level) t) ∧
    (requestKey (encode .rbRdCounter) = 0x09 ∧ ∃ t, exec .rbRdCounter s = .next t ∧
      RbTick s noStrobe (hostRegs s) (some s.counter) t)

/-- Reads of the schedule-input registers return the last value written (R284, R286). -/
def Obligations.RbScheduleInputReadsComplete : Prop :=
  ∀ s : State, s.params.Valid → (currentInput s).rst = false →
    (requestKey (encode .rbRdSchedTime) = 0x0D ∧ (fbWrites s (currentInput s) 4 = false →
      ∃ t, exec .rbRdSchedTime s = .next t ∧ RbTick s noStrobe (hostRegs s) (some s.schedTime) t)) ∧
    (requestKey (encode .rbRdSchedData) = 0x0E ∧ (fbWrites s (currentInput s) 5 = false →
      ∃ t, exec .rbRdSchedData s = .next t ∧ RbTick s noStrobe (hostRegs s) (some s.schedData) t))

/-- Reads of the capture head return the head's fields, and some value of the register's width where the
queue is empty; the head stays (R211, R277, R279). -/
def Obligations.RbCaptureHeadReadsComplete : Prop :=
  ∀ s : State, s.params.Valid → (currentInput s).rst = false → fbWrites s (currentInput s) 3 = false →
    (requestKey (encode .rbRdCapTime) = 0x0A ∧ ∃ t v, exec .rbRdCapTime s = .next t ∧
      RbTick s noStrobe (hostRegs s) (some v) t ∧
      (∀ r ∈ s.capq.head?, v = timestampWord s.params r.cycle r.sub) ∧
      (s.capq = [] → v.toNat < 2 ^ s.params.tw)) ∧
    (requestKey (encode .rbRdCapData) = 0x0B ∧ ∃ t v, exec .rbRdCapData s = .next t ∧
      RbTick s noStrobe (hostRegs s) (some v) t ∧
      (∀ r ∈ s.capq.head?, v = r.levels) ∧ (s.capq = [] → v.toNat < 2 ^ s.params.nch))

/-! ## The fast-bus view -/

/-- Writes of the read-only fast-bus addresses are ignored and acknowledged (R304, R306, R308). -/
def Obligations.FbIgnoredWritesComplete : Prop :=
  ∀ (s : State) (d : Word), s.params.Valid → (currentInput s).rst = false → s.fbAck = false →
    (requestKey (encode (.fbWrCounter d)) = 0x100 ∧ ∃ t, exec (.fbWrCounter d) s = .next t ∧
      FbTick s noStrobe (hostRegs s) 0#32 t) ∧
    (requestKey (encode (.fbWrCapTime d)) = 0x101 ∧ ∃ t, exec (.fbWrCapTime d) s = .next t ∧
      FbTick s noStrobe (hostRegs s) 0#32 t) ∧
    (requestKey (encode (.fbWrCapData d)) = 0x102 ∧ ∃ t, exec (.fbWrCapData d) s = .next t ∧
      FbTick s noStrobe (hostRegs s) 0#32 t)

/-- Writes of the schedule-input registers through the fast bus (R311, R313). -/
def Obligations.FbScheduleInputWritesComplete : Prop :=
  ∀ (s : State) (d : Word), s.params.Valid → (currentInput s).rst = false → s.fbAck = false →
    rbWrites (currentInput s) 15 = false →
    (requestKey (encode (.fbWrSchedTime d)) = 0x104 ∧
      (rbReads (currentInput s) 13 = false → rbWrites (currentInput s) 13 = false →
        ∃ t, exec (.fbWrSchedTime d) s = .next t ∧
          FbTick s noStrobe { hostRegs s with schedTime := truncTo s.params.tw d } 0#32 t)) ∧
    (requestKey (encode (.fbWrSchedData d)) = 0x105 ∧
      (rbReads (currentInput s) 14 = false → rbWrites (currentInput s) 14 = false →
        ∃ t, exec (.fbWrSchedData d) s = .next t ∧
          FbTick s noStrobe { hostRegs s with schedData := truncTo s.params.nch d } 0#32 t))

/-- The pop of the fast-bus view (R309). -/
def Obligations.FbCaptureNextCompletes : Prop :=
  ∀ (s : State) (d : Word), s.params.Valid → (currentInput s).rst = false → s.fbAck = false →
    requestKey (encode (.fbWrCapNext d)) = 0x103 ∧
    (rbReads (currentInput s) 10 = false → rbReads (currentInput s) 11 = false →
      rbWrites (currentInput s) 12 = false →
      ∃ t, exec (.fbWrCapNext d) s = .next t ∧ FbTick s ⟨false, true, false⟩ (hostRegs s) 0#32 t)

/-- The push of the fast-bus view (R315). -/
def Obligations.FbScheduleNextCompletes : Prop :=
  ∀ (s : State) (d : Word), s.params.Valid → (currentInput s).rst = false → s.fbAck = false →
    requestKey (encode (.fbWrSchedNext d)) = 0x106 ∧
    (rbWrites (currentInput s) 13 = false → rbWrites (currentInput s) 14 = false →
      rbWrites (currentInput s) 15 = false →
      ∃ t, exec (.fbWrSchedNext d) s = .next t ∧ FbTick s ⟨false, false, true⟩ (hostRegs s) 0#32 t)

/-- Reads of the counter and of the schedule-input registers through the fast bus (R303, R312, R314). -/
def Obligations.FbWordReadsComplete : Prop :=
  ∀ s : State, s.params.Valid → (currentInput s).rst = false → s.fbAck = false →
    (requestKey (encode .fbRdCounter) = 0x000 ∧ (rbWrites (currentInput s) 0 = false →
      ∃ t, exec .fbRdCounter s = .next t ∧ FbTick s noStrobe (hostRegs s) s.counter t)) ∧
    (requestKey (encode .fbRdSchedTime) = 0x004 ∧ (rbWrites (currentInput s) 13 = false →
      ∃ t, exec .fbRdSchedTime s = .next t ∧ FbTick s noStrobe (hostRegs s) s.schedTime t)) ∧
    (requestKey (encode .fbRdSchedData) = 0x005 ∧ (rbWrites (currentInput s) 14 = false →
      ∃ t, exec .fbRdSchedData s = .next t ∧ FbTick s noStrobe (hostRegs s) s.schedData t))

/-- Reads of the "next" addresses return 0 and pop or push nothing (R310, R316: the spec's own decision
D20). -/
def Obligations.FbStrobeReadsComplete : Prop :=
  ∀ s : State, s.params.Valid → (currentInput s).rst = false → s.fbAck = false →
    (requestKey (encode .fbRdCapNext) = 0x003 ∧ ∃ t, exec .fbRdCapNext s = .next t ∧
      FbTick s noStrobe (hostRegs s) 0#32 t) ∧
    (requestKey (encode .fbRdSchedNext) = 0x006 ∧ ∃ t, exec .fbRdSchedNext s = .next t ∧
      FbTick s noStrobe (hostRegs s) 0#32 t)

/-- Reserved addresses: acknowledged like any other; a read returns 0, a write does nothing (R126, R317: the
spec's own decision D20). -/
def Obligations.FbReservedCompletes : Prop :=
  ∀ (s : State) (adr : BitVec 8) (d : Word), s.params.Valid → (currentInput s).rst = false →
    s.fbAck = false → 7 ≤ adr.toNat →
    (requestKey (encode (.fbRdReserved adr)) = adr.toNat ∧
      ∃ t, exec (.fbRdReserved adr) s = .next t ∧ FbTick s noStrobe (hostRegs s) 0#32 t) ∧
    (requestKey (encode (.fbWrReserved adr d)) = 0x100 + adr.toNat ∧
      ∃ t, exec (.fbWrReserved adr d) s = .next t ∧ FbTick s noStrobe (hostRegs s) 0#32 t)

/-- Reads of the capture head through the fast bus (R211, R305, R307). -/
def Obligations.FbCaptureHeadReadsComplete : Prop :=
  ∀ s : State, s.params.Valid → (currentInput s).rst = false → s.fbAck = false →
    rbWrites (currentInput s) 12 = false →
    (requestKey (encode .fbRdCapTime) = 0x001 ∧ ∃ t v, exec .fbRdCapTime s = .next t ∧
      FbTick s noStrobe (hostRegs s) v t ∧
      (∀ r ∈ s.capq.head?, v = timestampWord s.params r.cycle r.sub) ∧
      (s.capq = [] → v.toNat < 2 ^ s.params.tw)) ∧
    (requestKey (encode .fbRdCapData) = 0x002 ∧ ∃ t v, exec .fbRdCapData s = .next t ∧
      FbTick s noStrobe (hostRegs s) v t ∧
      (∀ r ∈ s.capq.head?, v = r.levels) ∧ (s.capq = [] → v.toNat < 2 ^ s.params.nch))

/-- A request present in an acknowledge tick is not accepted: the tick is that of no fast-bus operation, and
the request is not stored (R302, R318). -/
def Obligations.RequestWaitsInAcknowledgeTick : Prop :=
  ∀ (s : State) (i : Instr), s.params.Valid → (currentInput s).rst = false → s.fbAck = true →
    i.view = .fastBus →
    ∃ t, exec i s = .next t ∧
      TickRules s ⟨rbWrites (currentInput s) 0, rbWrites (currentInput s) 12, rbWrites (currentInput s) 15⟩ t ∧
      hostRegs t = rbStores s.params (currentInput s) (hostRegs s) ∧
      t.fbAck = false ∧ t.fbRdata = 0#32 ∧ RegBankRules s (currentInput s) t

/-- A tick in which a view performs no operation: that view strobes nothing, stores nothing and reads
nothing; the engine and the other view go on as in every tick (R290, R318). -/
def Obligations.TickWithoutOperation : Prop :=
  ∀ s : State, s.params.Valid → (currentInput s).rst = false →
    ((currentInput s).rbOp = .none → ∃ t, step s = .next t ∧ RbTick s noStrobe (hostRegs s) none t) ∧
    (fbAccepts s (currentInput s) = false → ∃ t, step s = .next t ∧
      TickRules s ⟨rbWrites (currentInput s) 0, rbWrites (currentInput s) 12, rbWrites (currentInput s) 15⟩ t ∧
      hostRegs t = rbStores s.params (currentInput s) (hostRegs s) ∧
      t.fbAck = false ∧ t.fbRdata = 0#32 ∧ RegBankRules s (currentInput s) t)

/-! ## The engine -/

/-- The low-resolution detector is the high-resolution one on a line that keeps its level through the tick
(R159). -/
def Obligations.LowDetectorIsHighDetector : Prop :=
  ∀ b level rise fall : Bool, edgeLow b level rise fall = edgeHigh (rep8 b) level rise fall

/-- The table of single-transition vectors (R166): a line that changes at phase `k` is detected there. -/
def Obligations.SingleTransitionVectors : Prop :=
  ∀ (k : Fin 8) (rise fall : Bool),
    changedBits (0xFF#8 <<< k.val) false = 0xFF#8 <<< k.val ∧
    edgeHigh (0xFF#8 <<< k.val) false rise fall = ⟨rise, BitVec.ofNat 3 k.val, true⟩ ∧
    changedBits (~~~(0xFF#8 <<< k.val)) true = 0xFF#8 <<< k.val ∧
    edgeHigh (~~~(0xFF#8 <<< k.val)) true rise fall = ⟨fall, BitVec.ofNat 3 k.val, false⟩

/-- An output edge commanded at a subcycle and looped back to an input is detected at that subcycle
(R178, R179). -/
def Obligations.CommandedEdgeIsDetected : Prop :=
  ∀ (vec : Samples) (level : Bool) (k : Subcycle), level ≠ vec.getLsbD 7 →
    edgeHigh (pulseHigh vec true level k) (vec.getLsbD 7) true true = ⟨true, k, level⟩

/-- The sampler's shift register, fed the levels a serializer sends tick after tick, hands over the same
vectors, one a tick, whatever it held before (R142, R146, R148). -/
def Obligations.SerializedVectorsAreSampled : Prop :=
  ∀ (v : Variant) (sr : Samples) (vectors : List Samples),
    (deserializerRun v.osf ⟨sr, 0⟩ (vectors.flatMap (serialize v.osf))).2.map (serialize v.osf) =
      vectors.map (serialize v.osf) ∧
    (deserializerRun v.osf ⟨sr, 0⟩ (vectors.flatMap (serialize v.osf))).1.phase = 0

/-- The detector of a channel depends on nothing of any other channel (R167). -/
def Obligations.DetectorsAreIndependent : Prop :=
  ∀ (s s' : State) (inp inp' : TickInput) (c : Nat), s.params.variant = s'.params.variant →
    lane inp.samp c = lane inp'.samp c → s.level.getLsbD c = s'.level.getLsbD c →
    s.riseEn.getLsbD c = s'.riseEn.getLsbD c → s.fallEn.getLsbD c = s'.fallEn.getLsbD c →
    channelEdge s inp c = channelEdge s' inp' c

/-- The remembered level of a channel follows its own line alone: enables, running, queues, host operations
and the other channels do not reach it (R160). -/
def Obligations.LevelFollowsItsLineAlone : Prop :=
  ∀ (s s' t t' : State) (c : Nat), s.params.Valid → s'.params = s.params →
    (currentInput s).rst = false → (currentInput s').rst = false →
    lane (currentInput s).samp c = lane (currentInput s').samp c →
    s.level.getLsbD c = s'.level.getLsbD c →
    step s = .next t → step s' = .next t' → t.level.getLsbD c = t'.level.getLsbD c

/-- The output enables gate the pins alone: two blocks that differ in them have equal successors but for the
enables, `oe_n`, and what a read of `OUTPUT_EN` returns (R180, R181). -/
def Obligations.OutputEnableGatesThePinAlone : Prop :=
  ∀ (s t : State) (e : Word), (currentInput s).rst = false → step s = .next t →
    ∃ t', step { s with outEn := e } = .next t' ∧
      t = { t' with outEn := t.outEn
                    out := { t'.out with oeN := t.out.oeN, rbRdata := t.out.rbRdata } } ∧
      ((currentInput s).rbOp ≠ .read 8#5 → t'.out.rbRdata = t.out.rbRdata)

/-- A transition of one channel alone, its direction enabled, gives exactly one record with the count and
the phase and the new levels; of several simultaneous ones the lowest channel gives the only record (R197),
under R197's further premises that the block runs and the queue has room. -/
def Obligations.EdgeGivesOneRecord : Prop :=
  ∀ (s t : State) (c k : Nat), s.params.Valid → (currentInput s).rst = false → step s = .next t →
    Running s (currentInput s) → s.capq.length < s.params.capDepth →
    c < s.params.nch → FirstPhase s (currentInput s) c k → Enabled s c →
    ((∀ b, b < s.params.nch → b ≠ c → ¬ Transition s (currentInput s) b) →
      t.capq = poppedCapq s (strobesOf s (currentInput s)).pop ++ [⟨s.counter, BitVec.ofNat 3 k, t.level⟩] ∧
      t.level.getLsbD c = !s.level.getLsbD c ∧
      ∀ b, b < s.params.nch → b ≠ c → t.level.getLsbD b = s.level.getLsbD b) ∧
    ((∀ b, b < c → ¬ (Transition s (currentInput s) b ∧ Enabled s b)) →
      t.capq = poppedCapq s (strobesOf s (currentInput s)).pop ++ [⟨s.counter, BitVec.ofNat 3 k, t.level⟩] ∧
      ∀ b, b < s.params.nch → Transition s (currentInput s) b → t.level.getLsbD b = !s.level.getLsbD b)

/-- A detected edge against a full Capture Queue in a running tick is dropped: nothing enters, the oldest
records stay, and the condition is latched where it has just become true (R212, R220, R357). -/
def Obligations.OverflowKeepsOldestRecords : Prop :=
  ∀ (s t : State) (c : Nat), s.params.Valid → (currentInput s).rst = false → step s = .next t →
    Running s (currentInput s) → Detects s (currentInput s) c → s.capq.length = s.params.capDepth →
    t.capq = poppedCapq s (strobesOf s (currentInput s)).pop ∧ t.prevOf = true ∧
    (s.prevOf = false → t.pendOf = true)

/-- The table of same-tick combinations (R219), with what it says of the records: the old head leaves, the
new record enters at the end. -/
def Obligations.QueueStepTable : Prop :=
  ∀ (α : Type) (depth : Nat) (q : List α) (r : α), 1 ≤ depth → q.length ≤ depth →
    (q = [] → queueStep depth q none true = [] ∧ queueStep depth q (some r) false = [r] ∧
      queueStep depth q (some r) true = [r] ∧ queueDropped depth q (some r) = false) ∧
    (0 < q.length → q.length < depth → queueStep depth q (some r) true = q.tail ++ [r] ∧
      (queueStep depth q (some r) true).length = q.length ∧ queueDropped depth q (some r) = false) ∧
    (q.length = depth → queueStep depth q (some r) false = q ∧
      queueStep depth q (some r) true = q.tail ∧ (queueStep depth q (some r) true).length = depth - 1 ∧
      queueStep depth q none true = q.tail ∧ queueDropped depth q (some r) = true ∧
      queueDropped depth q none = false)

/-- A held flush empties a queue of `n` records in `n` ticks if nothing is pushed meanwhile (R214, R244). -/
def Obligations.HeldFlushDrainsTheQueue : Prop :=
  ∀ s : State,
    (s.flushCap = true → s.arm = false → s.force = false → LeftAlone s.capq.length s →
      ∃ t, Sys2Proof.core.run s.capq.length s = .next t ∧ t.capq = []) ∧
    (s.flushSch = true → LeftAlone s.schq.length s →
      ∃ t, Sys2Proof.core.run s.schq.length s = .next t ∧ t.schq = [])

/-- The wrap notification: in exactly the tick whose transition takes the counter from `2^W - 1` to 0 by
counting (R228, R360: the spec's own decision D15). -/
def Obligations.WrapPulseMarksTheWrap : Prop :=
  ∀ s t : State, s.params.Valid → (currentInput s).rst = false → step s = .next t →
    (t.out.ev.getLsbD 6 = true ↔
      Running s (currentInput s) ∧ (strobesOf s (currentInput s)).zero = false ∧
      s.counter.toNat = 2 ^ s.params.w - 1) ∧
    (t.out.ev.getLsbD 6 = true → t.counter = 0#32)

/-- Fire is not gated by `running` (R249): while the block does not run, a record whose cycle equals the
counter is popped and its levels are applied from its phase on; a record of another cycle waits, since the
counter does not move. -/
def Obligations.FireIsNotGatedByRunning : Prop :=
  ∀ (s t : State) (r : ScheduleRecord) (rest : List ScheduleRecord), s.params.Valid →
    (currentInput s).rst = false → step s = .next t → ¬ Running s (currentInput s) → s.schq = r :: rest →
    ((strobesOf s (currentInput s)).zero = false → t.counter = s.counter) ∧
    (r.cycle = s.counter → r.sub.toNat < s.params.variant.osf →
      (∃ pushed, t.schq = rest ++ pushed ∧ pushed.length ≤ 1) ∧
      ∀ c k, c < s.params.nch → k < s.params.variant.osf →
        (lane t.out.outVec c).getLsbD k =
          if r.sub.toNat ≤ k then r.levels.getLsbD c else steadyLevel s c) ∧
    (r.cycle ≠ s.counter → s.flushSch = false →
      (∃ pushed, t.schq = r :: rest ++ pushed ∧ pushed.length ≤ 1) ∧
      ∀ c k, c < s.params.nch → k < s.params.variant.osf →
        (lane t.out.outVec c).getLsbD k = steadyLevel s c)

/-- A pending bit once set stays set until its clear request or a reset, and its line shows it, over any
number of ticks (R357: the spec's own decisions D14, D33). -/
def Obligations.PendingBitsStayUntilCleared : Prop :=
  ∀ (n : Nat) (s t : State), n ≤ s.inputs.length → (∀ inp ∈ s.inputs.take n, inp.rst = false) →
    Sys2Proof.core.run n s = .next t →
    (s.pendOf = true → (∀ inp ∈ s.inputs.take n, inp.evClear.getLsbD 2 = false) → t.pendOf = true) ∧
    (s.pendUf = true → (∀ inp ∈ s.inputs.take n, inp.evClear.getLsbD 3 = false) → t.pendUf = true) ∧
    (s.pendStarted = true → (∀ inp ∈ s.inputs.take n, inp.evClear.getLsbD 4 = false) →
      t.pendStarted = true) ∧
    (s.pendStopped = true → (∀ inp ∈ s.inputs.take n, inp.evClear.getLsbD 5 = false) →
      t.pendStopped = true)

/-- Behind the host's back capture-readable only rises: without a pop and without a flush the Capture Queue
keeps every record; and without a push the Schedule Queue never grows (R412). -/
def Obligations.LinesOnlyRiseBehindTheHost : Prop :=
  ∀ s t : State, (currentInput s).rst = false → step s = .next t →
    ((strobesOf s (currentInput s)).pop = false → s.flushCap = false → ∃ more, t.capq = s.capq ++ more) ∧
    ((strobesOf s (currentInput s)).push = false →
      ∃ gone, s.schq = gone ++ t.schq ∧ gone.length ≤ 1)

/-- A timestamp word read from `CAP_TIME` and written to `SCHED_TIME` names the same instant: cycle and
subcycle come back (R102, R109). -/
def Obligations.TimestampFieldsComeBack : Prop :=
  ∀ (p : Params) (cycle : Word) (sub : Subcycle), p.Valid → Fits p.w cycle →
    sub.toNat < p.variant.osf →
    timestampCycle p (timestampWord p cycle sub) = cycle ∧ timestampSub p (timestampWord p cycle sub) = sub ∧
    Fits p.tw (timestampWord p cycle sub)

/-- A free value reaches nothing but the read data: two blocks that draw differently agree in everything
else, and where the Capture Queue is not empty and there is no reset in everything but the draws (R336). -/
def Obligations.FreeValuesReachReadDataAlone : Prop :=
  ∀ (s t : State) (n : Nat), s.inputs ≠ [] → step s = .next t →
    ∃ t', step { s with draws := n } = .next t' ∧
      t' = { t with draws := t'.draws, fbRdata := t'.fbRdata,
                    out := { t.out with rbRdata := t'.out.rbRdata } } ∧
      (s.capq ≠ [] → (currentInput s).rst = false →
        t'.fbRdata = t.fbRdata ∧ t'.out.rbRdata = t.out.rbRdata)

/-- The round trip of the scheduler (R185): while the block is forced to run (`force = 1`; running by `arm`
and the trigger alone is not covered), its schedule is not flushed and it is left alone, the output line of
every channel has, at every phase of every tick, the level of the last record due by then; the records leave
in the order pushed, each when its cycle has passed. -/
def Obligations.ScheduleRoundTrip : Prop :=
  ∀ (n : Nat) (s : State), s.params.Valid → QueuesFit s → ScheduleAhead s → s.force = true →
    s.flushSch = false → s.counter.toNat + n < 2 ^ s.params.w → LeftAlone (n + 1) s →
    ∃ u t, Sys2Proof.core.run n s = .next u ∧ step u = .next t ∧
      u.counter.toNat = s.counter.toNat + n ∧
      u.schq = (s.schq.filter fun r => decide (s.counter.toNat + n ≤ r.cycle.toNat)) ∧
      ∀ c k, c < s.params.nch → k < s.params.variant.osf →
        (lane t.out.outVec c).getLsbD k =
          dueLevel s c ((s.counter.toNat + n) * s.params.variant.osf + k)
end

