-- ==== Sys2Proof/Laws/Bits.lean ====
section
/-! SUPPORT. What the bit and word operations do, bit by bit and as numbers. -/

namespace Sys2Proof.Laws

open Sys2Proof.Machine

@[simp] theorem truncTo_getLsbD (n : Nat) (v : Word) (i : Nat) :
    (truncTo n v).getLsbD i = (decide (i < n) && v.getLsbD i) := by
  unfold truncTo
  by_cases h : i < 32
  · simp [BitVec.getLsbD_setWidth, h]
  · simp [BitVec.getLsbD_of_ge _ _ (Nat.not_lt.mp h)]

theorem truncTo_toNat (n : Nat) (v : Word) : (truncTo n v).toNat = v.toNat % 2 ^ n := by
  unfold truncTo
  have h : v.toNat % 2 ^ n < 2 ^ 32 := Nat.lt_of_le_of_lt (Nat.mod_le _ _) v.isLt
  simp only [BitVec.toNat_setWidth]
  exact Nat.mod_eq_of_lt h

theorem fits_iff (n : Nat) (v : Word) : Fits n v ↔ v.toNat < 2 ^ n := by
  constructor
  · intro h
    rw [← h, truncTo_toNat]
    exact Nat.mod_lt _ (Nat.two_pow_pos n)
  · intro h
    apply BitVec.eq_of_toNat_eq
    rw [truncTo_toNat, Nat.mod_eq_of_lt h]

@[simp] theorem fits_truncTo (n : Nat) (v : Word) : Fits n (truncTo n v) := by
  rw [fits_iff, truncTo_toNat]
  exact Nat.mod_lt _ (Nat.two_pow_pos n)

@[simp] theorem fits_zero (n : Nat) : Fits n 0#32 := by
  rw [fits_iff]
  exact Nat.two_pow_pos n

theorem getLsbD_of_fits {n : Nat} {v : Word} (h : Fits n v) {i : Nat} (hi : n ≤ i) :
    v.getLsbD i = false := by
  rw [← h, truncTo_getLsbD]
  simp [Nat.not_lt.mpr hi]

theorem fits_of_getLsbD {n : Nat} {v : Word} (h : ∀ i, n ≤ i → v.getLsbD i = false) : Fits n v := by
  apply BitVec.eq_of_getLsbD_eq
  intro i _
  rw [truncTo_getLsbD]
  by_cases hi : i < n
  · simp [hi]
  · simp [hi, h i (Nat.not_lt.mp hi)]

theorem bitmapOf_getLsbD (n : Nat) (f : Nat → Bool) (c : Nat) :
    (bitmapOf n f).getLsbD c = (decide (c < 32) && decide (c < n) && f c) := by
  induction n with
  | zero => simp [bitmapOf]
  | succ n ih =>
    have hone : (if f n then 1#32 <<< n else 0#32).getLsbD c
        = (decide (c < 32) && decide (c = n) && f n) := by
      by_cases hf : f n
      · by_cases h32 : c < 32
        · by_cases hc : c < n
          · simp [hf, h32, hc, Nat.ne_of_lt hc]
          · by_cases he : c = n
            · subst he; simp [hf, h32]
            · have hs : c - n ≠ 0 := by omega
              simp [hf, h32, he, hs]
        · simp [hf, h32]
      · simp [hf]
    rw [bitmapOf, BitVec.getLsbD_or, ih, hone]
    by_cases he : c = n
    · subst he; simp
    · have : (c < n + 1) ↔ (c < n) := by omega
      simp [he, this]

theorem fits_bitmapOf (n : Nat) (f : Nat → Bool) : Fits n (bitmapOf n f) :=
  fits_of_getLsbD fun i hi => by simp [bitmapOf_getLsbD, Nat.not_lt.mpr hi]

theorem leastSet_eq_some (n : Nat) (f : Nat → Bool) (c : Nat) :
    leastSet n f = some c ↔ c < n ∧ f c = true ∧ ∀ b, b < c → f b = false := by
  unfold leastSet
  rw [List.find?_range_eq_some]
  simp
  tauto

theorem leastSet_eq_none (n : Nat) (f : Nat → Bool) :
    leastSet n f = none ↔ ∀ c, c < n → f c = false := by
  simp [leastSet, List.find?_eq_none]

theorem leastSet_isSome (n : Nat) (f : Nat → Bool) :
    (leastSet n f).isSome = true ↔ ∃ c, c < n ∧ f c = true := by
  rw [← Option.ne_none_iff_isSome, Ne, leastSet_eq_none]
  push Not
  simp

/-- `lsbIndex` is the least set bit of a vector that has one (R13). -/
theorem lsbIndex_spec {v : Samples} (h : v ≠ 0#8) :
    lsbIndex v < 8 ∧ v.getLsbD (lsbIndex v) = true ∧ ∀ j, j < lsbIndex v → v.getLsbD j = false := by
  cases hl : leastSet 8 v.getLsbD with
  | none =>
    refine absurd (BitVec.eq_of_getLsbD_eq fun i hi => ?_) h
    rw [(leastSet_eq_none 8 v.getLsbD).mp hl i hi]; simp
  | some k =>
    have := (leastSet_eq_some 8 v.getLsbD k).mp hl
    simpa [lsbIndex, hl] using this

theorem ne_zero_iff_exists_bit (v : Samples) : v ≠ 0#8 ↔ ∃ k, k < 8 ∧ v.getLsbD k = true := by
  constructor
  · intro h
    exact ⟨lsbIndex v, (lsbIndex_spec h).1, (lsbIndex_spec h).2.1⟩
  · rintro ⟨k, _, hk⟩ rfl
    simp at hk

@[simp] theorem lane_ofFn (f : Fin 32 → Samples) (c : Nat) :
    lane (Vector.ofFn f) c = if h : c < 32 then f ⟨c, h⟩ else 0#8 := by
  unfold lane
  by_cases h : c < 32 <;> simp [h]

@[simp] theorem lane_replicate_zero (c : Nat) : lane (Vector.replicate 32 0#8) c = 0#8 := by
  unfold lane
  by_cases h : c < 32 <;> simp [h]

@[simp] theorem rep8_getLsbD (b : Bool) (p : Nat) : (rep8 b).getLsbD p = (decide (p < 8) && b) := by
  cases b
  · simp [rep8]
  · by_cases h : p < 8
    · have : ∀ q : Fin 8, (rep8 true).getLsbD q.val = true := by decide
      simpa [h] using this ⟨p, h⟩
    · simp [rep8, h, BitVec.getLsbD_of_ge _ _ (Nat.not_lt.mp h)]

@[simp] theorem bit8_getLsbD (b : Bool) (p : Nat) : (bit8 b).getLsbD p = (decide (p = 0) && b) := by
  cases b <;> simp [bit8, BitVec.getLsbD_one]

/-- The edge mask holds the phases from the subcycle on (R179). -/
theorem edgeMask_getLsbD (k : Subcycle) (p : Nat) :
    (edgeMask k).getLsbD p = (decide (p < 8) && decide (k.toNat ≤ p)) := by
  by_cases h : p < 8
  · have : ∀ k : Fin 8, ∀ q : Fin 8,
        (0xFF#8 <<< k.val).getLsbD q.val = decide (k.val ≤ q.val) := by decide
    simpa [edgeMask, h] using this ⟨k.toNat, k.isLt⟩ ⟨p, h⟩
  · simp [h, BitVec.getLsbD_of_ge _ _ (Nat.not_lt.mp h)]

/-- What the queue step can do (R210): at most the head leaves, at most one record enters, and the tests
are on the queue at the start of the tick. -/
theorem queueStep_eq {α : Type} (depth : Nat) (q : List α) (push : Option α) (pop : Bool) :
    queueStep depth q push pop =
      (if pop then q.tail else q) ++ (if q.length < depth then push.toList else []) := by
  unfold queueStep readable writable
  cases q <;> cases pop <;> simp

theorem queueStep_length_le {α : Type} {depth : Nat} {q : List α} (push : Option α) (pop : Bool)
    (h : q.length ≤ depth) : (queueStep depth q push pop).length ≤ depth := by
  rw [queueStep_eq]
  cases pop <;> cases push <;> by_cases hl : q.length < depth <;>
    simp only [hl, if_true, if_false, Option.toList, List.length_append, List.length_tail,
      List.length_cons, List.length_nil, Bool.false_eq_true] <;> omega

/-- Every record of the queue after a step was in it before or is the pushed one. -/
theorem mem_queueStep {α : Type} {depth : Nat} {q : List α} {push : Option α} {pop : Bool} {r : α}
    (h : r ∈ queueStep depth q push pop) : r ∈ q ∨ push = some r := by
  rw [queueStep_eq, List.mem_append] at h
  rcases h with h | h
  · left
    cases pop
    · simpa using h
    · exact List.mem_of_mem_tail (by simpa using h)
  · right
    by_cases hl : q.length < depth
    · cases push with
      | none => simp [hl] at h
      | some x => simp [hl] at h; rw [h]
    · simp [hl] at h

end Sys2Proof.Laws
end

