-- ==== Sys2Proof/Laws/Decode.lean ====
section
/-! SUPPORT. What the decoder reads, said once: the bytes of a data word, the key of a request, the reserved
ranges. -/

namespace Sys2Proof.Laws

/-- The bits of a data word, byte by byte. -/
theorem wordOfBytes_getLsbD (b0 b1 b2 b3 : Byte) (i : Nat) :
    (wordOfBytes b0 b1 b2 b3).getLsbD i =
      if i < 8 then b0.getLsbD i else if i < 16 then b1.getLsbD (i - 8)
      else if i < 24 then b2.getLsbD (i - 16) else b3.getLsbD (i - 24) := by
  change BitVec.getLsbD (w := 8 + 8 + 8 + 8) (b3 ++ b2 ++ b1 ++ b0) i = _
  simp only [BitVec.getLsbD_append]
  by_cases h1 : i < 8
  · simp [h1]
  · by_cases h2 : i < 16
    · have : i - 8 < 8 := by omega
      simp [h1, h2, this]
    · by_cases h3 : i < 24
      · have a : ¬ i - 8 < 8 := by omega
        have b : i - 16 < 8 := by omega
        have c : i - 8 - 8 = i - 16 := by omega
        simp only [h1, h2, h3, a, b, c, if_false, if_true]
      · have a : ¬ i - 8 < 8 := by omega
        have b : ¬ i - 8 - 8 < 8 := by omega
        have c : i - 8 - 8 - 8 = i - 24 := by omega
        simp only [h1, h2, h3, a, b, c, if_false]

/-- A data word from its own bytes. -/
theorem wordOfBytes_bytes (d : Word) :
    wordOfBytes (d.extractLsb' 0 8) (d.extractLsb' 8 8) (d.extractLsb' 16 8) (d.extractLsb' 24 8) =
      d := by
  apply BitVec.eq_of_getLsbD_eq
  intro i hi
  rw [wordOfBytes_getLsbD]
  simp only [BitVec.getLsbD_extractLsb']
  split
  · simp [*]
  · split
    · have : i - 8 < 8 := by omega
      have h : 8 + (i - 8) = i := by omega
      simp [this, h]
    · split
      · have : i - 16 < 8 := by omega
        have h : 16 + (i - 16) = i := by omega
        simp [this, h]
      · have : i - 24 < 8 := by omega
        have h : 24 + (i - 24) = i := by omega
        simp [this, h]

/-- The bytes of a data word made of bytes. -/
theorem bytesOfWord_word (b0 b1 b2 b3 : Byte) :
    bytesOfWord (wordOfBytes b0 b1 b2 b3) = [b0, b1, b2, b3] := by
  have byte : ∀ (n : Nat) (b : Byte), (∀ i, i < 8 → (wordOfBytes b0 b1 b2 b3).getLsbD (n + i) = b.getLsbD i) →
      (wordOfBytes b0 b1 b2 b3).extractLsb' n 8 = b := by
    intro n b h
    apply BitVec.eq_of_getLsbD_eq
    intro i hi
    rw [BitVec.getLsbD_extractLsb', h i hi]
    simp [hi]
  unfold bytesOfWord
  rw [byte 0 b0, byte 8 b1, byte 16 b2, byte 24 b3]
  all_goals
    intro i hi
    rw [wordOfBytes_getLsbD]
  · rw [if_neg (by omega), if_neg (by omega), if_neg (by omega)]; congr 1; omega
  · rw [if_neg (by omega), if_neg (by omega), if_pos (by omega)]; congr 1; omega
  · rw [if_neg (by omega), if_pos (by omega)]; congr 1; omega
  · rw [if_pos (by omega)]; congr 1; omega

/-- The decoder on a register-bank request (R100). -/
theorem decode_rbRequest (key : BitVec 6) (d : Word) :
    decode .regBank (key.setWidth 8 :: bytesOfWord d) = .ok (decodeRb key d) := by
  have hk : (key.setWidth 8).toNat < 64 := by
    have := key.isLt
    simp
    omega
  have : (key.setWidth 8).setWidth 6 = key := by
    apply BitVec.eq_of_toNat_eq
    simp
  unfold decode bytesOfWord
  simp only [hk, if_true, this, wordOfBytes_bytes]

/-- The decoder on a fast-bus request (R101). -/
theorem decode_fbRequest (key : BitVec 9) (d : Word) :
    decode .fastBus (key.extractLsb' 0 8 :: (key.extractLsb' 8 1).setWidth 8 :: bytesOfWord d) =
      .ok (decodeFb key d) := by
  have h : (key.extractLsb' 8 1).setWidth 8 ++ key.extractLsb' 0 8 = key.setWidth 16 := by
    revert key; decide +revert
  have hk : (key.setWidth 16).toNat < 512 := by
    have := key.isLt
    simp
    omega
  have : (key.setWidth 16).setWidth 9 = key := by
    apply BitVec.eq_of_toNat_eq
    simp
  unfold decode bytesOfWord
  simp only [h, hk, if_true, this, wordOfBytes_bytes]

/-! ## Keys split into their write bit and their number -/

@[simp] theorem decodeRb_read (idx : BitVec 5) (d : Word) : decodeRb (0#1 ++ idx) d = decodeRbRead idx := by
  have h : ∀ idx : BitVec 5, rbreqIdx (0#1 ++ idx) = idx ∧ rbreqWe (0#1 ++ idx) = false := by decide
  simp [decodeRb, h idx]

@[simp] theorem decodeRb_write (idx : BitVec 5) (d : Word) :
    decodeRb (1#1 ++ idx) d = decodeRbWrite idx d := by
  have h : ∀ idx : BitVec 5, rbreqIdx (1#1 ++ idx) = idx ∧ rbreqWe (1#1 ++ idx) = true := by decide
  simp [decodeRb, h idx]

@[simp] theorem decodeFb_read (adr : BitVec 8) (d : Word) : decodeFb (0#1 ++ adr) d = decodeFbRead adr := by
  have h : ∀ adr : BitVec 8, fbreqAdr (0#1 ++ adr) = adr ∧ fbreqWe (0#1 ++ adr) = false := by decide
  simp [decodeFb, h adr]

@[simp] theorem decodeFb_write (adr : BitVec 8) (d : Word) :
    decodeFb (1#1 ++ adr) d = decodeFbWrite adr d := by
  have h : ∀ adr : BitVec 8, fbreqAdr (1#1 ++ adr) = adr ∧ fbreqWe (1#1 ++ adr) = true := by decide
  simp [decodeFb, h adr]

/-- The key of `FBREQ` from the write flag of the port. -/
theorem decodeFb_port (we : Bool) (adr : BitVec 8) (d : Word) :
    decodeFb (BitVec.ofBool we ++ adr) d = if we then decodeFbWrite adr d else decodeFbRead adr := by
  cases we
  · exact decodeFb_read adr d
  · exact decodeFb_write adr d

/-! ## Encoding what was decoded -/

theorem encode_decodeRbRead (idx : BitVec 5) :
    encode (decodeRbRead idx) = rbRequest (0#1 ++ idx) 0#32 := by
  unfold decodeRbRead
  split <;> rename_i h
  all_goals first
    | (have hi : idx = BitVec.ofNat 5 idx.toNat := by simp
       rw [h] at hi
       subst hi
       rfl)
    | rfl

theorem encode_decodeRbWrite (idx : BitVec 5) (d : Word) :
    encode (decodeRbWrite idx d) = rbRequest (1#1 ++ idx) d := by
  unfold decodeRbWrite
  split <;> rename_i h
  all_goals first
    | (have hi : idx = BitVec.ofNat 5 idx.toNat := by simp
       rw [h] at hi
       subst hi
       rfl)
    | rfl

theorem encode_decodeFbRead (adr : BitVec 8) :
    encode (decodeFbRead adr) = fbRequest (0#1 ++ adr) 0#32 := by
  unfold decodeFbRead
  split <;> rename_i h
  all_goals first
    | (have hi : adr = BitVec.ofNat 8 adr.toNat := by simp
       rw [h] at hi
       subst hi
       rfl)
    | rfl

theorem encode_decodeFbWrite (adr : BitVec 8) (d : Word) :
    encode (decodeFbWrite adr d) = fbRequest (1#1 ++ adr) d := by
  unfold decodeFbWrite
  split <;> rename_i h
  all_goals first
    | (have hi : adr = BitVec.ofNat 8 adr.toNat := by simp
       rw [h] at hi
       subst hi
       rfl)
    | rfl

/-! ## Reserved ranges -/

theorem decodeRbRead_reserved {idx : BitVec 5} (h : ReservedIndex idx) :
    decodeRbRead idx = .rbRdReserved idx := by
  unfold ReservedIndex at h
  unfold decodeRbRead
  split <;> first | omega | rfl

theorem decodeRbWrite_reserved {idx : BitVec 5} (h : ReservedIndex idx) (d : Word) :
    decodeRbWrite idx d = .rbWrReserved idx d := by
  unfold ReservedIndex at h
  unfold decodeRbWrite
  split <;> first | omega | rfl

theorem decodeFbRead_reserved {adr : BitVec 8} (h : ReservedAddress adr) :
    decodeFbRead adr = .fbRdReserved adr := by
  unfold ReservedAddress at h
  unfold decodeFbRead
  split <;> first | omega | rfl

theorem decodeFbWrite_reserved {adr : BitVec 8} (h : ReservedAddress adr) (d : Word) :
    decodeFbWrite adr d = .fbWrReserved adr d := by
  unfold ReservedAddress at h
  unfold decodeFbWrite
  split <;> first | omega | rfl

end Sys2Proof.Laws
end

