-- ==== Sys2Proof/Laws/State.lean ====
section
/-! SUPPORT. The fields of a state after the shared operations of Machine/Ops.lean, one lemma a field, so that
no proof unfolds a record. -/

namespace Sys2Proof.Laws

open Sys2Proof.Machine

/-! ## After a tick of the engine -/

@[simp] theorem engineTick_params (s : State) (rb fb : HostEffect) (accept : Bool) :
    (engineTick s rb fb accept).params = s.params := rfl

@[simp] theorem engineTick_level (s : State) (rb fb : HostEffect) (accept : Bool) :
    (engineTick s rb fb accept).level = newLevels s (currentInput s) := rfl

@[simp] theorem engineTick_riseEn (s : State) (rb fb : HostEffect) (accept : Bool) :
    (engineTick s rb fb accept).riseEn = (rb.both fb).riseEn.getD s.riseEn := rfl

@[simp] theorem engineTick_fallEn (s : State) (rb fb : HostEffect) (accept : Bool) :
    (engineTick s rb fb accept).fallEn = (rb.both fb).fallEn.getD s.fallEn := rfl

@[simp] theorem engineTick_outEn (s : State) (rb fb : HostEffect) (accept : Bool) :
    (engineTick s rb fb accept).outEn = (rb.both fb).outEn.getD s.outEn := rfl

@[simp] theorem engineTick_outvec (s : State) (rb fb : HostEffect) (accept : Bool) :
    (engineTick s rb fb accept).outvec = nextOutvec s := rfl

@[simp] theorem engineTick_counter (s : State) (rb fb : HostEffect) (accept : Bool) :
    (engineTick s rb fb accept).counter = nextCounter s (currentInput s) (rb.zero || fb.zero) := rfl

@[simp] theorem engineTick_arm (s : State) (rb fb : HostEffect) (accept : Bool) :
    (engineTick s rb fb accept).arm = (rb.both fb).arm.getD s.arm := rfl

@[simp] theorem engineTick_force (s : State) (rb fb : HostEffect) (accept : Bool) :
    (engineTick s rb fb accept).force = (rb.both fb).force.getD s.force := rfl

@[simp] theorem engineTick_flushCap (s : State) (rb fb : HostEffect) (accept : Bool) :
    (engineTick s rb fb accept).flushCap = (rb.both fb).flushCap.getD s.flushCap := rfl

@[simp] theorem engineTick_flushSch (s : State) (rb fb : HostEffect) (accept : Bool) :
    (engineTick s rb fb accept).flushSch = (rb.both fb).flushSch.getD s.flushSch := rfl

@[simp] theorem engineTick_schedTime (s : State) (rb fb : HostEffect) (accept : Bool) :
    (engineTick s rb fb accept).schedTime = (rb.both fb).schedTime.getD s.schedTime := rfl

@[simp] theorem engineTick_schedData (s : State) (rb fb : HostEffect) (accept : Bool) :
    (engineTick s rb fb accept).schedData = (rb.both fb).schedData.getD s.schedData := rfl

@[simp] theorem engineTick_capq (s : State) (rb fb : HostEffect) (accept : Bool) :
    (engineTick s rb fb accept).capq = nextCapq s (currentInput s) (rb.capNext || fb.capNext) := rfl

@[simp] theorem engineTick_schq (s : State) (rb fb : HostEffect) (accept : Bool) :
    (engineTick s rb fb accept).schq = nextSchq s (rb.schedNext || fb.schedNext) := rfl

@[simp] theorem engineTick_pendOf (s : State) (rb fb : HostEffect) (accept : Bool) :
    (engineTick s rb fb accept).pendOf = nextPendOf s (currentInput s) := rfl

@[simp] theorem engineTick_pendUf (s : State) (rb fb : HostEffect) (accept : Bool) :
    (engineTick s rb fb accept).pendUf = nextPendUf s (currentInput s) := rfl

@[simp] theorem engineTick_pendStarted (s : State) (rb fb : HostEffect) (accept : Bool) :
    (engineTick s rb fb accept).pendStarted = nextPendStarted s (currentInput s) := rfl

@[simp] theorem engineTick_pendStopped (s : State) (rb fb : HostEffect) (accept : Bool) :
    (engineTick s rb fb accept).pendStopped = nextPendStopped s (currentInput s) := rfl

@[simp] theorem engineTick_prevOf (s : State) (rb fb : HostEffect) (accept : Bool) :
    (engineTick s rb fb accept).prevOf = overflowSignal s (currentInput s) := rfl

@[simp] theorem engineTick_prevUf (s : State) (rb fb : HostEffect) (accept : Bool) :
    (engineTick s rb fb accept).prevUf = underflowSignal s := rfl

@[simp] theorem engineTick_prevRunning (s : State) (rb fb : HostEffect) (accept : Bool) :
    (engineTick s rb fb accept).prevRunning = running s (currentInput s) := rfl

@[simp] theorem engineTick_fbAck (s : State) (rb fb : HostEffect) (accept : Bool) :
    (engineTick s rb fb accept).fbAck = accept := rfl

@[simp] theorem engineTick_fbRdata (s : State) (rb fb : HostEffect) (accept : Bool) :
    (engineTick s rb fb accept).fbRdata = fb.rdata.getD 0#32 := rfl

@[simp] theorem engineTick_out (s : State) (rb fb : HostEffect) (accept : Bool) :
    (engineTick s rb fb accept).out = tickOutputs s (currentInput s) (rb.zero || fb.zero) rb.rdata := rfl

@[simp] theorem engineTick_inputs (s : State) (rb fb : HostEffect) (accept : Bool) :
    (engineTick s rb fb accept).inputs = s.inputs.tail := rfl

@[simp] theorem engineTick_draws (s : State) (rb fb : HostEffect) (accept : Bool) :
    (engineTick s rb fb accept).draws = s.draws + 1 := rfl

/-! ## After a reset tick -/

@[simp] theorem resetTick_params (s : State) (op : Bool) : (resetTick s op).params = s.params := rfl
@[simp] theorem resetTick_level (s : State) (op : Bool) : (resetTick s op).level = 0#32 := rfl
@[simp] theorem resetTick_riseEn (s : State) (op : Bool) : (resetTick s op).riseEn = 0#32 := rfl
@[simp] theorem resetTick_fallEn (s : State) (op : Bool) : (resetTick s op).fallEn = 0#32 := rfl
@[simp] theorem resetTick_outEn (s : State) (op : Bool) : (resetTick s op).outEn = 0#32 := rfl
@[simp] theorem resetTick_outvec (s : State) (op : Bool) : (resetTick s op).outvec = Vector.replicate 32 0#8 := rfl
@[simp] theorem resetTick_counter (s : State) (op : Bool) : (resetTick s op).counter = 0#32 := rfl
@[simp] theorem resetTick_arm (s : State) (op : Bool) : (resetTick s op).arm = false := rfl
@[simp] theorem resetTick_force (s : State) (op : Bool) : (resetTick s op).force = false := rfl
@[simp] theorem resetTick_flushCap (s : State) (op : Bool) : (resetTick s op).flushCap = false := rfl
@[simp] theorem resetTick_flushSch (s : State) (op : Bool) : (resetTick s op).flushSch = false := rfl
@[simp] theorem resetTick_schedTime (s : State) (op : Bool) : (resetTick s op).schedTime = 0#32 := rfl
@[simp] theorem resetTick_schedData (s : State) (op : Bool) : (resetTick s op).schedData = 0#32 := rfl
@[simp] theorem resetTick_capq (s : State) (op : Bool) : (resetTick s op).capq = [] := rfl
@[simp] theorem resetTick_schq (s : State) (op : Bool) : (resetTick s op).schq = [] := rfl
@[simp] theorem resetTick_pendOf (s : State) (op : Bool) : (resetTick s op).pendOf = false := rfl
@[simp] theorem resetTick_pendUf (s : State) (op : Bool) : (resetTick s op).pendUf = false := rfl
@[simp] theorem resetTick_pendStarted (s : State) (op : Bool) : (resetTick s op).pendStarted = false := rfl
@[simp] theorem resetTick_pendStopped (s : State) (op : Bool) : (resetTick s op).pendStopped = false := rfl
@[simp] theorem resetTick_prevOf (s : State) (op : Bool) : (resetTick s op).prevOf = false := rfl
@[simp] theorem resetTick_prevUf (s : State) (op : Bool) : (resetTick s op).prevUf = false := rfl
@[simp] theorem resetTick_prevRunning (s : State) (op : Bool) : (resetTick s op).prevRunning = false := rfl
@[simp] theorem resetTick_fbAck (s : State) (op : Bool) : (resetTick s op).fbAck = false := rfl
@[simp] theorem resetTick_fbRdata (s : State) (op : Bool) : (resetTick s op).fbRdata = 0#32 := rfl
@[simp] theorem resetTick_out (s : State) (op : Bool) : (resetTick s op).out = resetTickOutputs s op := rfl
@[simp] theorem resetTick_inputs (s : State) (op : Bool) : (resetTick s op).inputs = s.inputs.tail := rfl
@[simp] theorem resetTick_draws (s : State) (op : Bool) : (resetTick s op).draws = s.draws + 1 := rfl

/-! ## The reset state -/

@[simp] theorem resetOf_params (p : Sys2Proof.Config.Params) : (State.resetOf p).params = p := rfl
@[simp] theorem resetOf_level (p : Sys2Proof.Config.Params) : (State.resetOf p).level = 0#32 := rfl
@[simp] theorem resetOf_riseEn (p : Sys2Proof.Config.Params) : (State.resetOf p).riseEn = 0#32 := rfl
@[simp] theorem resetOf_fallEn (p : Sys2Proof.Config.Params) : (State.resetOf p).fallEn = 0#32 := rfl
@[simp] theorem resetOf_outEn (p : Sys2Proof.Config.Params) : (State.resetOf p).outEn = 0#32 := rfl
@[simp] theorem resetOf_outvec (p : Sys2Proof.Config.Params) : (State.resetOf p).outvec = Vector.replicate 32 0#8 := rfl
@[simp] theorem resetOf_counter (p : Sys2Proof.Config.Params) : (State.resetOf p).counter = 0#32 := rfl
@[simp] theorem resetOf_arm (p : Sys2Proof.Config.Params) : (State.resetOf p).arm = false := rfl
@[simp] theorem resetOf_force (p : Sys2Proof.Config.Params) : (State.resetOf p).force = false := rfl
@[simp] theorem resetOf_flushCap (p : Sys2Proof.Config.Params) : (State.resetOf p).flushCap = false := rfl
@[simp] theorem resetOf_flushSch (p : Sys2Proof.Config.Params) : (State.resetOf p).flushSch = false := rfl
@[simp] theorem resetOf_schedTime (p : Sys2Proof.Config.Params) : (State.resetOf p).schedTime = 0#32 := rfl
@[simp] theorem resetOf_schedData (p : Sys2Proof.Config.Params) : (State.resetOf p).schedData = 0#32 := rfl
@[simp] theorem resetOf_capq (p : Sys2Proof.Config.Params) : (State.resetOf p).capq = [] := rfl
@[simp] theorem resetOf_schq (p : Sys2Proof.Config.Params) : (State.resetOf p).schq = [] := rfl
@[simp] theorem resetOf_pendOf (p : Sys2Proof.Config.Params) : (State.resetOf p).pendOf = false := rfl
@[simp] theorem resetOf_pendUf (p : Sys2Proof.Config.Params) : (State.resetOf p).pendUf = false := rfl
@[simp] theorem resetOf_pendStarted (p : Sys2Proof.Config.Params) : (State.resetOf p).pendStarted = false := rfl
@[simp] theorem resetOf_pendStopped (p : Sys2Proof.Config.Params) : (State.resetOf p).pendStopped = false := rfl
@[simp] theorem resetOf_prevOf (p : Sys2Proof.Config.Params) : (State.resetOf p).prevOf = false := rfl
@[simp] theorem resetOf_prevUf (p : Sys2Proof.Config.Params) : (State.resetOf p).prevUf = false := rfl
@[simp] theorem resetOf_prevRunning (p : Sys2Proof.Config.Params) : (State.resetOf p).prevRunning = false := rfl
@[simp] theorem resetOf_fbAck (p : Sys2Proof.Config.Params) : (State.resetOf p).fbAck = false := rfl
@[simp] theorem resetOf_fbRdata (p : Sys2Proof.Config.Params) : (State.resetOf p).fbRdata = 0#32 := rfl
@[simp] theorem resetOf_out (p : Sys2Proof.Config.Params) : (State.resetOf p).out = resetOutputs p := rfl
@[simp] theorem resetOf_inputs (p : Sys2Proof.Config.Params) : (State.resetOf p).inputs = [] := rfl
@[simp] theorem resetOf_draws (p : Sys2Proof.Config.Params) : (State.resetOf p).draws = 0 := rfl

/-! ## After placing a request: the inputs and `fb_ack` alone -/

@[simp] theorem placeRequest_params (s : State) (nbits w : Nat) : (placeRequest s nbits w).params = s.params := rfl
@[simp] theorem placeRequest_level (s : State) (nbits w : Nat) : (placeRequest s nbits w).level = s.level := rfl
@[simp] theorem placeRequest_riseEn (s : State) (nbits w : Nat) : (placeRequest s nbits w).riseEn = s.riseEn := rfl
@[simp] theorem placeRequest_fallEn (s : State) (nbits w : Nat) : (placeRequest s nbits w).fallEn = s.fallEn := rfl
@[simp] theorem placeRequest_outEn (s : State) (nbits w : Nat) : (placeRequest s nbits w).outEn = s.outEn := rfl
@[simp] theorem placeRequest_outvec (s : State) (nbits w : Nat) : (placeRequest s nbits w).outvec = s.outvec := rfl
@[simp] theorem placeRequest_counter (s : State) (nbits w : Nat) : (placeRequest s nbits w).counter = s.counter := rfl
@[simp] theorem placeRequest_arm (s : State) (nbits w : Nat) : (placeRequest s nbits w).arm = s.arm := rfl
@[simp] theorem placeRequest_force (s : State) (nbits w : Nat) : (placeRequest s nbits w).force = s.force := rfl
@[simp] theorem placeRequest_flushCap (s : State) (nbits w : Nat) : (placeRequest s nbits w).flushCap = s.flushCap := rfl
@[simp] theorem placeRequest_flushSch (s : State) (nbits w : Nat) : (placeRequest s nbits w).flushSch = s.flushSch := rfl
@[simp] theorem placeRequest_schedTime (s : State) (nbits w : Nat) : (placeRequest s nbits w).schedTime = s.schedTime := rfl
@[simp] theorem placeRequest_schedData (s : State) (nbits w : Nat) : (placeRequest s nbits w).schedData = s.schedData := rfl
@[simp] theorem placeRequest_capq (s : State) (nbits w : Nat) : (placeRequest s nbits w).capq = s.capq := rfl
@[simp] theorem placeRequest_schq (s : State) (nbits w : Nat) : (placeRequest s nbits w).schq = s.schq := rfl
@[simp] theorem placeRequest_pendOf (s : State) (nbits w : Nat) : (placeRequest s nbits w).pendOf = s.pendOf := rfl
@[simp] theorem placeRequest_pendUf (s : State) (nbits w : Nat) : (placeRequest s nbits w).pendUf = s.pendUf := rfl
@[simp] theorem placeRequest_pendStarted (s : State) (nbits w : Nat) : (placeRequest s nbits w).pendStarted = s.pendStarted := rfl
@[simp] theorem placeRequest_pendStopped (s : State) (nbits w : Nat) : (placeRequest s nbits w).pendStopped = s.pendStopped := rfl
@[simp] theorem placeRequest_prevOf (s : State) (nbits w : Nat) : (placeRequest s nbits w).prevOf = s.prevOf := rfl
@[simp] theorem placeRequest_prevUf (s : State) (nbits w : Nat) : (placeRequest s nbits w).prevUf = s.prevUf := rfl
@[simp] theorem placeRequest_prevRunning (s : State) (nbits w : Nat) : (placeRequest s nbits w).prevRunning = s.prevRunning := rfl
@[simp] theorem placeRequest_fbRdata (s : State) (nbits w : Nat) : (placeRequest s nbits w).fbRdata = s.fbRdata := rfl
@[simp] theorem placeRequest_out (s : State) (nbits w : Nat) : (placeRequest s nbits w).out = s.out := rfl
@[simp] theorem placeRequest_draws (s : State) (nbits w : Nat) : (placeRequest s nbits w).draws = s.draws := rfl

@[simp] theorem placeRequest_currentInput (s : State) (nbits w : Nat) :
    currentInput (placeRequest s nbits w) = fetchInput (fetchBase s) nbits w := rfl

/-! ## The outputs of a tick -/

@[simp] theorem tickOutputs_outVec (s : State) (inp : TickInput) (zero : Bool) (rd : Option Word) :
    (tickOutputs s inp zero rd).outVec = nextOutvec s := rfl
@[simp] theorem tickOutputs_oeN (s : State) (inp : TickInput) (zero : Bool) (rd : Option Word) :
    (tickOutputs s inp zero rd).oeN = outputDisable s := rfl
@[simp] theorem tickOutputs_ev (s : State) (inp : TickInput) (zero : Bool) (rd : Option Word) :
    (tickOutputs s inp zero rd).ev = conditionLines s inp zero := rfl
@[simp] theorem tickOutputs_rbRdata (s : State) (inp : TickInput) (zero : Bool) (rd : Option Word) :
    (tickOutputs s inp zero rd).rbRdata = rd := rfl
@[simp] theorem tickOutputs_fbAck (s : State) (inp : TickInput) (zero : Bool) (rd : Option Word) :
    (tickOutputs s inp zero rd).fbAck = s.fbAck := rfl
@[simp] theorem tickOutputs_fbRdata (s : State) (inp : TickInput) (zero : Bool) (rd : Option Word) :
    (tickOutputs s inp zero rd).fbRdata = s.fbRdata := rfl

end Sys2Proof.Laws
end

