-- ==== Sys2Proof/Laws/Engine.lean ====
section
/-! SUPPORT. What each part of the engine can do, said once in the terms of Safety.lean. -/

namespace Sys2Proof.Laws

open Sys2Proof.Machine Sys2Proof.Config Sys2Proof.Safety

/-! ## Edge Detector and selection -/

theorem running_iff (s : State) (inp : TickInput) : running s inp = true ↔ Running s inp := by
  simp [running, Running]

/-- A bit of the changed-bit vector (R158). -/
theorem changedBits_getLsbD (v : Samples) (b : Bool) {k : Nat} (hk : k < 8) :
    (changedBits v b).getLsbD k = (v.getLsbD k ^^ b) := by
  rw [changedBits, BitVec.getLsbD_xor, rep8_getLsbD, decide_eq_true hk, Bool.true_and]

/-- What the detector of the high-resolution variant does (R158, R160, R164). -/
theorem edgeHigh_spec (v : Samples) (lv rise fall : Bool) :
    ((edgeHigh v lv rise fall).detect = true ↔
      (∃ k, k < 8 ∧ v.getLsbD k ≠ lv) ∧ edgeActive lv rise fall = true) ∧
    ((edgeHigh v lv rise fall).level ≠ lv ↔ ∃ k, k < 8 ∧ v.getLsbD k ≠ lv) ∧
    ((∃ k, k < 8 ∧ v.getLsbD k ≠ lv) →
      (edgeHigh v lv rise fall).sub.toNat < 8 ∧
      v.getLsbD (edgeHigh v lv rise fall).sub.toNat ≠ lv ∧
      ∀ j, j < (edgeHigh v lv rise fall).sub.toNat → v.getLsbD j = lv) := by
  have hbit : ∀ k, k < 8 → ((changedBits v lv).getLsbD k = true ↔ v.getLsbD k ≠ lv) := by
    intro k hk
    rw [changedBits_getLsbD v lv hk]
    cases v.getLsbD k <;> cases lv <;> simp
  have hex : (∃ k, k < 8 ∧ v.getLsbD k ≠ lv) ↔ changedBits v lv ≠ 0#8 := by
    rw [ne_zero_iff_exists_bit]
    constructor
    · rintro ⟨k, hk, h⟩; exact ⟨k, hk, (hbit k hk).mpr h⟩
    · rintro ⟨k, hk, h⟩; exact ⟨k, hk, (hbit k hk).mp h⟩
  refine ⟨?_, ?_, ?_⟩
  · rw [hex]; simp [edgeHigh]
  · rw [hex]
    by_cases h : changedBits v lv = 0#8
    · simp [edgeHigh, h]
    · cases lv <;> simp [edgeHigh, h]
  · intro h
    have hne := hex.mp h
    obtain ⟨hlt, hset, hleast⟩ := lsbIndex_spec hne
    have hsub : (edgeHigh v lv rise fall).sub.toNat = lsbIndex (changedBits v lv) := by
      simp [edgeHigh, hne]; omega
    rw [hsub]
    refine ⟨hlt, (hbit _ hlt).mp hset, fun j hj => ?_⟩
    have := hleast j hj
    by_contra hc
    rw [(hbit j (by omega)).mpr hc] at this
    cases this

/-- The low-resolution detector is the high-resolution one on one sample (R159). -/
theorem edgeLow_eq_edgeHigh (v : Samples) (lv rise fall : Bool) :
    ((edgeLow (v.getLsbD 0) lv rise fall).detect = true ↔
      v.getLsbD 0 ≠ lv ∧ edgeActive lv rise fall = true) ∧
    ((edgeLow (v.getLsbD 0) lv rise fall).level ≠ lv ↔ v.getLsbD 0 ≠ lv) ∧
    (edgeLow (v.getLsbD 0) lv rise fall).sub = 0#3 := by
  simp [edgeLow]

theorem edgeActive_iff (s : State) (c : Nat) :
    edgeActive (s.level.getLsbD c) (s.riseEn.getLsbD c) (s.fallEn.getLsbD c) = true ↔ Enabled s c := by
  cases h : s.level.getLsbD c <;> simp [edgeActive, Enabled, h]

theorem transition_high {s : State} (hv : s.params.variant = .high) (inp : TickInput) (c : Nat) :
    Transition s inp c ↔ ∃ k, k < 8 ∧ (lane inp.samp c).getLsbD k ≠ s.level.getLsbD c := by
  simp [Transition, Differs, sampleAt, hv, Variant.osf]

theorem transition_low {s : State} (hv : s.params.variant = .low) (inp : TickInput) (c : Nat) :
    Transition s inp c ↔ (lane inp.samp c).getLsbD 0 ≠ s.level.getLsbD c := by
  simp [Transition, Differs, sampleAt, hv, Variant.osf]

/-- The whole of what the detector of a channel gives (R155 to R164). -/
theorem channelEdge_spec (s : State) (inp : TickInput) (c : Nat) :
    ((channelEdge s inp c).detect = true ↔ Transition s inp c ∧ Enabled s c) ∧
    ((channelEdge s inp c).level ≠ s.level.getLsbD c ↔ Transition s inp c) ∧
    (Transition s inp c → FirstPhase s inp c (channelEdge s inp c).sub.toNat) := by
  cases hv : s.params.variant with
  | high =>
    have h := edgeHigh_spec (lane inp.samp c) (s.level.getLsbD c) (s.riseEn.getLsbD c)
      (s.fallEn.getLsbD c)
    have hce : channelEdge s inp c = edgeHigh (lane inp.samp c) (s.level.getLsbD c)
        (s.riseEn.getLsbD c) (s.fallEn.getLsbD c) := by
      simp [channelEdge, edgeDetect, sampleVector, hv]
    rw [hce, transition_high hv, ← edgeActive_iff]
    refine ⟨h.1, h.2.1, fun ht => ?_⟩
    obtain ⟨h1, h2, h3⟩ := h.2.2 ht
    refine ⟨⟨by simpa [hv, Variant.osf] using h1, h2⟩, fun j hj hd => hd.2 (h3 j hj)⟩
  | low =>
    have h := edgeLow_eq_edgeHigh (lane inp.samp c) (s.level.getLsbD c) (s.riseEn.getLsbD c)
      (s.fallEn.getLsbD c)
    have hce : channelEdge s inp c = edgeLow ((lane inp.samp c).getLsbD 0) (s.level.getLsbD c)
        (s.riseEn.getLsbD c) (s.fallEn.getLsbD c) := by
      simp [channelEdge, edgeDetect, sampleVector, hv]
    rw [hce, transition_low hv, ← edgeActive_iff]
    refine ⟨h.1, h.2.1, fun ht => ?_⟩
    rw [h.2.2]
    exact ⟨⟨by simp [hv, Variant.osf], ht⟩, fun j hj => absurd hj (Nat.not_lt_zero j)⟩

theorem newLevels_getLsbD {s : State} (hn : s.params.nch ≤ 32) (inp : TickInput) (c : Nat) :
    (newLevels s inp).getLsbD c = (decide (c < s.params.nch) && (channelEdge s inp c).level) := by
  rw [newLevels, bitmapOf_getLsbD]
  by_cases h : c < s.params.nch
  · have : c < 32 := by omega
    simp [h, this]
  · simp [h]

/-- The selection is the winner of the tie-break (R190, R191). -/
theorem selected_eq_some (s : State) (inp : TickInput) (c : Nat) :
    selected s inp = some c ↔ Wins s inp c := by
  rw [selected, leastSet_eq_some]
  have hd : ∀ b, (channelEdge s inp b).detect = true ↔ Transition s inp b ∧ Enabled s b :=
    fun b => (channelEdge_spec s inp b).1
  constructor
  · rintro ⟨hc, h, hmin⟩
    refine ⟨⟨hc, (hd c).mp h⟩, fun b hb hdet => ?_⟩
    have := hmin b hb
    rw [(hd b).mpr hdet.2] at this
    cases this
  · rintro ⟨⟨hc, h⟩, hmin⟩
    refine ⟨hc, (hd c).mpr h, fun b hb => ?_⟩
    by_contra hne
    exact hmin b hb ⟨by omega, (hd b).mp (by simpa using hne)⟩

theorem selected_eq_none (s : State) (inp : TickInput) :
    selected s inp = none ↔ ∀ c, ¬ Detects s inp c := by
  rw [selected, leastSet_eq_none]
  constructor
  · rintro h c ⟨hc, hd⟩
    have := h c hc
    rw [(channelEdge_spec s inp c).1.mpr hd] at this
    cases this
  · intro h c hc
    by_contra hne
    exact h c ⟨hc, (channelEdge_spec s inp c).1.mp (by simpa using hne)⟩

/-! ## Capture -/

/-- A push is requested exactly in a running tick with a winner (R192). -/
theorem capturePush_eq (s : State) (inp : TickInput) :
    capturePush s inp = if running s inp then (selected s inp).map (captureRecord s inp) else none := rfl

/-- A capture: the record of the winner (R192, R193, R197). -/
theorem capturePush_of_wins {s : State} {inp : TickInput} {c : Nat} (hr : Running s inp)
    (hw : Wins s inp c) : capturePush s inp = some (captureRecord s inp c) := by
  rw [capturePush, (running_iff s inp).mpr hr, (selected_eq_some s inp c).mpr hw]; rfl

theorem capturePush_eq_none (s : State) (inp : TickInput) :
    capturePush s inp = none ↔ ¬ Running s inp ∨ ∀ c, ¬ Detects s inp c := by
  rw [← selected_eq_none, ← running_iff, capturePush]
  by_cases h : running s inp = true <;> simp [h]

theorem overflowSignal_iff (s : State) (inp : TickInput) :
    overflowSignal s inp = true ↔ Overflows s inp := by
  have hp : (capturePush s inp).isSome = true ↔ Running s inp ∧ ∃ c, Detects s inp c := by
    rw [← Option.ne_none_iff_isSome, Ne, capturePush_eq_none]
    push Not
    rfl
  simp only [overflowSignal, queueDropped, writable, Bool.and_eq_true, Bool.not_eq_true',
    decide_eq_false_iff_not, Nat.not_lt, hp, Overflows, and_assoc]

theorem nextCapq_eq (s : State) (inp : TickInput) (strobe : Bool) :
    nextCapq s inp strobe = poppedCapq s strobe ++
      (if s.capq.length < s.params.capDepth then (capturePush s inp).toList else []) := by
  rw [nextCapq, queueStep_eq, poppedCapq]

/-! ## Counter -/

theorem nextCounter_toNat {s : State} (hw : s.params.w ≤ 32) (inp : TickInput) (zero : Bool) :
    (nextCounter s inp zero).toNat =
      if zero then 0
      else if running s inp then (s.counter.toNat + 1) % 2 ^ s.params.w else s.counter.toNat := by
  unfold nextCounter
  cases zero
  · cases running s inp
    · simp
    · simp only [Bool.false_eq_true, if_false, if_true, truncTo_toNat, BitVec.toNat_add,
        BitVec.toNat_ofNat]
      rw [Nat.mod_eq_of_lt (show 1 < 2 ^ 32 by decide),
        Nat.mod_mod_of_dvd _ (Nat.pow_dvd_pow 2 hw)]
  · simp

theorem counterMax_toNat {p : Params} (hw : p.w ≤ 32) : (counterMax p).toNat = 2 ^ p.w - 1 := by
  have h : 2 ^ p.w ≤ 2 ^ 32 := Nat.pow_le_pow_right (by decide) hw
  have hp : 0 < 2 ^ p.w := Nat.two_pow_pos _
  rw [counterMax, BitVec.toNat_ofNat, Nat.mod_eq_of_lt (by omega)]

theorem wrapPulse_iff {s : State} (hw : s.params.w ≤ 32) (inp : TickInput) (zero : Bool) :
    wrapPulse s inp zero = true ↔
      Running s inp ∧ zero = false ∧ s.counter.toNat = 2 ^ s.params.w - 1 := by
  rw [← counterMax_toNat hw, ← running_iff]
  simp only [wrapPulse, Bool.and_eq_true, Bool.not_eq_true', beq_iff_eq, ← BitVec.toNat_inj, and_assoc]

/-! ## Schedule and fire -/

theorem fire_iff (s : State) : fire s = true ↔ Fires s := by
  unfold fire Fires
  cases s.schq <;> simp

theorem underflowSignal_iff (s : State) :
    underflowSignal s = true ↔ s.flushSch = true ∧ ¬ Fires s := by
  rw [← fire_iff, underflowSignal]
  cases fire s <;> simp

theorem nextSchq_eq (s : State) (strobe : Bool) :
    nextSchq s strobe = (if fire s || s.flushSch then s.schq.tail else s.schq) ++
      (if s.schq.length < s.params.schDepth then
        (if strobe then some (scheduleRecord s) else none).toList else []) := by
  rw [nextSchq, queueStep_eq]

/-- The record of a push has the fields of the timestamp word and the bitmap (R102, R109, R246). -/
theorem scheduleRecord_spec (s : State) : IsScheduled s (scheduleRecord s) := by
  refine ⟨?_, ?_, rfl⟩
  · simp [scheduleRecord, timestampCycle, truncTo_toNat, Nat.shiftRight_eq_div_pow]
  · cases hv : s.params.variant
    · simp [scheduleRecord, timestampSub, hv, Variant.subw]
    · simp [scheduleRecord, timestampSub, hv, Variant.subw, Nat.mod_one]

/-! ## Pulse Scheduler -/

theorem pulseHigh_getLsbD (vec : Samples) (f cmd : Bool) (k : Subcycle) {p : Nat} (hp : p < 8) :
    (pulseHigh vec f cmd k).getLsbD p =
      if f = true ∧ k.toNat ≤ p then cmd else vec.getLsbD 7 := by
  have hrep : ∀ b, (rep8 b).getLsbD p = b := fun b => by
    rw [rep8_getLsbD, decide_eq_true hp, Bool.true_and]
  have hmask : (edgeMask k).getLsbD p = decide (k.toNat ≤ p) := by
    rw [edgeMask_getLsbD, decide_eq_true hp, Bool.true_and]
  unfold pulseHigh
  simp only []
  split <;> rename_i hcond
  · rw [BitVec.getLsbD_xor, hrep, hmask]
    revert hcond
    cases f <;> cases cmd <;> cases vec.getLsbD 7 <;> by_cases h : k.toNat ≤ p <;> simp [h]
  · rw [hrep]
    revert hcond
    cases f <;> cases cmd <;> cases vec.getLsbD 7 <;> by_cases h : k.toNat ≤ p <;> simp [h]

theorem pulseLow_getLsbD (vec : Samples) (f cmd : Bool) :
    (pulseLow vec f cmd).getLsbD 0 = if f then cmd else vec.getLsbD 0 := by
  cases f
  · rfl
  · rw [pulseLow, if_pos rfl, if_pos rfl, bit8_getLsbD]; rfl

@[simp] theorem lane_nextOutvec {s : State} (hn : s.params.nch ≤ 32) (c : Nat) :
    lane (nextOutvec s) c = if c < s.params.nch then
      pulse s.params.variant (lane s.outvec c) (fire s) (commandLevel s c) (commandSub s) else 0#8 := by
  unfold nextOutvec
  rw [lane_ofFn]
  by_cases h : c < s.params.nch
  · have : c < 32 := by omega
    simp [h, this]
  · simp [h]

/-- The output vector of a channel, phase by phase (R177, R178, R179, R243). -/
theorem nextOutvec_getLsbD {s : State} (hn : s.params.nch ≤ 32) {c k : Nat} (hc : c < s.params.nch)
    (hk : k < s.params.variant.osf) : (lane (nextOutvec s) c).getLsbD k = outLevel s c k := by
  rw [lane_nextOutvec hn, if_pos hc]
  unfold outLevel steadyLevel fire commandLevel commandSub pulse
  cases hv : s.params.variant with
  | high =>
    have hk8 : k < 8 := by simpa [hv, Variant.osf] using hk
    rw [pulseHigh_getLsbD _ _ _ _ hk8]
    cases s.schq with
    | nil => simp [Variant.osf]
    | cons r rest =>
      have h8 := r.sub.isLt
      have hm : r.sub.toNat % 8 = r.sub.toNat := Nat.mod_eq_of_lt h8
      simp [Variant.osf, hm]
  | low =>
    have hk0 : k = 0 := by simpa [hv, Variant.osf] using hk
    subst hk0
    rw [pulseLow_getLsbD]
    cases s.schq with
    | nil => simp [Variant.osf]
    | cons r rest => simp [Variant.osf, Nat.mod_one]

theorem channelMask_getLsbD {p : Params} (hn : p.nch ≤ 32) (c : Nat) :
    (channelMask p).getLsbD c = decide (c < p.nch) := by
  rw [channelMask, BitVec.getLsbD_ofNat, Nat.testBit_two_pow_sub_one]
  by_cases h : c < p.nch
  · have : c < 32 := by omega
    simp [h, this]
  · simp [h]

theorem outputDisable_getLsbD {s : State} (hn : s.params.nch ≤ 32) (c : Nat) :
    (outputDisable s).getLsbD c = (decide (c < s.params.nch) && !s.outEn.getLsbD c) := by
  rw [outputDisable, BitVec.getLsbD_and, BitVec.getLsbD_not, channelMask_getLsbD hn]
  by_cases h : c < s.params.nch
  · have : c < 32 := by omega
    simp [h, this]
  · simp [h]

/-! ## Event/Condition Set -/

theorem latch_iff (pend clear signal prev : Bool) :
    latch pend clear signal prev = true ↔
      (pend = true ∧ clear = false) ∨ (signal = true ∧ prev = false) := by
  simp [latch]

/-- The seven lines, bit by bit (R332, R350). -/
theorem conditionLines_getLsbD (s : State) (inp : TickInput) (zero : Bool) :
    (conditionLines s inp zero).getLsbD 0 = readable s.capq ∧
    (conditionLines s inp zero).getLsbD 1 = writable s.params.schDepth s.schq ∧
    (conditionLines s inp zero).getLsbD 2 = s.pendOf ∧
    (conditionLines s inp zero).getLsbD 3 = s.pendUf ∧
    (conditionLines s inp zero).getLsbD 4 = s.pendStarted ∧
    (conditionLines s inp zero).getLsbD 5 = s.pendStopped ∧
    (conditionLines s inp zero).getLsbD 6 = wrapPulse s inp zero := by
  unfold conditionLines
  cases readable s.capq <;> cases writable s.params.schDepth s.schq <;> cases s.pendOf <;>
    cases s.pendUf <;> cases s.pendStarted <;> cases s.pendStopped <;>
    cases wrapPulse s inp zero <;> decide

/-! ## Words -/

/-- The timestamp word as a number (R102). -/
theorem timestampWord_toNat {p : Params} (hp : p.Valid) {cycle : Word} {sub : Subcycle}
    (hc : Fits p.w cycle) (hs : sub.toNat < p.variant.osf) :
    (timestampWord p cycle sub).toNat = cycle.toNat * p.variant.osf + sub.toNat := by
  obtain ⟨_, _, hsubw, htw, _⟩ := hp
  have hc' := (fits_iff p.w cycle).mp hc
  unfold timestampWord
  cases hv : p.variant with
  | high =>
    have hw : p.w = p.tw - 3 := by simp [Params.w, hv, Variant.subw]
    simp only [hv, Variant.subw, Variant.osf] at hsubw hs ⊢
    rw [hw] at hc'
    have hlt : cycle.toNat * 8 + sub.toNat < 2 ^ p.tw := by
      have : 2 ^ p.tw = 2 ^ (p.tw - 3) * 8 := by
        rw [show (8 : Nat) = 2 ^ 3 from rfl, ← Nat.pow_add, Nat.sub_add_cancel (by omega)]
      omega
    have h32 : 2 ^ p.tw ≤ 2 ^ 32 := Nat.pow_le_pow_right (by decide) htw
    have hor : (cycle <<< 3 ||| sub.setWidth 32).toNat = cycle.toNat * 8 + sub.toNat := by
      rw [BitVec.toNat_or, BitVec.toNat_shiftLeft, BitVec.toNat_setWidth,
        Nat.mod_eq_of_lt (show sub.toNat < 2 ^ 32 by omega), Nat.shiftLeft_eq,
        Nat.mod_eq_of_lt (by omega), show cycle.toNat * 2 ^ 3 = cycle.toNat <<< 3 from
          (Nat.shiftLeft_eq _ _).symm,
        ← Nat.shiftLeft_add_eq_or_of_lt (show sub.toNat < 2 ^ 3 from hs), Nat.shiftLeft_eq]
    rw [truncTo_toNat, hor, Nat.mod_eq_of_lt hlt]
  | low =>
    have hw : p.w = p.tw := by simp [Params.w, hv, Variant.subw]
    simp only [hv, Variant.osf] at hs ⊢
    rw [hw] at hc'
    rw [truncTo_toNat, Nat.mod_eq_of_lt hc']
    omega

end Sys2Proof.Laws
end

