-- ==== Sys2Proof/Laws/Tick.lean ====
section
/-! SUPPORT. What a tick can do, said once: the outcomes of `runTick`, the meaning of an operation as the
tick of its view, the contribution of every port operation, and the collisions. -/

namespace Sys2Proof.Laws

open Sys2Proof.Machine Sys2Proof.Config Sys2Proof.Safety

/-! ## The outcomes of a tick -/

/-- A reset tick (R390). -/
theorem runTick_reset {s : State} (rb fb : Option Presented) (h : (currentInput s).rst = true) :
    runTick rb fb s = .next (resetTick s rb.isSome) := by
  simp [runTick, h]

/-- A tick without reset in which nothing collides (R331). -/
theorem runTick_next {s : State} {rb fb : Option Presented} (h : (currentInput s).rst = false)
    (hc : ∀ a b, rb = some a → accepted s fb = some b → collide a.instr b.instr = false) :
    runTick rb fb s = .next (engineTick s (portEffect rb) (portEffect (accepted s fb))
      (accepted s fb).isSome) := by
  unfold runTick
  rw [if_neg (by simp [h])]
  cases rb with
  | none => cases hf : accepted s fb <;> rfl
  | some a =>
    cases hf : accepted s fb with
    | none => rfl
    | some b =>
      have := hc a b rfl hf
      simp only [this, Bool.false_eq_true, if_false]
      rfl

/-- A tick without reset in which the two operations collide (R405, R407). -/
theorem runTick_fault {s : State} {a b : Presented} {fb : Option Presented}
    (h : (currentInput s).rst = false) (hf : accepted s fb = some b)
    (hc : collide a.instr b.instr = true) :
    runTick (some a) fb s = .fault (.dualViewRace a.instr b.instr) := by
  simp [runTick, h, hf, hc]

/-- Everything a tick can do: reset, hazard, or the transition. -/
theorem runTick_cases (rb fb : Option Presented) (s : State) :
    ((currentInput s).rst = true ∧ runTick rb fb s = .next (resetTick s rb.isSome)) ∨
    ((currentInput s).rst = false ∧ ∃ a b, rb = some a ∧ accepted s fb = some b ∧
      collide a.instr b.instr = true ∧ runTick rb fb s = .fault (.dualViewRace a.instr b.instr)) ∨
    ((currentInput s).rst = false ∧
      (∀ a b, rb = some a → accepted s fb = some b → collide a.instr b.instr = false) ∧
      runTick rb fb s = .next (engineTick s (portEffect rb) (portEffect (accepted s fb))
        (accepted s fb).isSome)) := by
  cases h : (currentInput s).rst with
  | true => exact .inl ⟨rfl, runTick_reset rb fb h⟩
  | false =>
    right
    by_cases hc : ∀ a b, rb = some a → accepted s fb = some b → collide a.instr b.instr = false
    · exact .inr ⟨rfl, hc, runTick_next h hc⟩
    · push Not at hc
      obtain ⟨a, b, rfl, hb, hne⟩ := hc
      have hcol : collide a.instr b.instr = true := by simpa using hne
      exact .inl ⟨rfl, a, b, rfl, hb, hcol, runTick_fault h hb hcol⟩

/-- A next state comes from a reset or from the transition. -/
theorem next_cases {rb fb : Option Presented} {s t : State} (h : runTick rb fb s = .next t) :
    ((currentInput s).rst = true ∧ t = resetTick s rb.isSome) ∨
    ((currentInput s).rst = false ∧
      t = engineTick s (portEffect rb) (portEffect (accepted s fb)) (accepted s fb).isSome) := by
  rcases runTick_cases rb fb s with ⟨hr, hn⟩ | ⟨_, a, b, _, _, _, hn⟩ | ⟨hr, _, hn⟩
  · rw [hn] at h; cases h; exact .inl ⟨hr, rfl⟩
  · rw [hn] at h; cases h
  · rw [hn] at h; cases h; exact .inr ⟨hr, rfl⟩

/-! ## The meaning of an operation -/

theorem exec_regBank {i : Instr} (h : i.view = .regBank) (s : State) :
    exec i s = runTick (some (present i s)) (fastBusPort s) s := by
  cases i <;> first | rfl | cases h

theorem exec_fastBus {i : Instr} (h : i.view = .fastBus) (s : State) :
    exec i s = runTick (regBankPort s) (some (present i s)) s := by
  cases i <;> first | rfl | cases h

theorem decodeRb_view (key : BitVec 6) (d : Word) : (decodeRb key d).view = .regBank := by
  unfold decodeRb decodeRbWrite decodeRbRead
  split <;> split <;> rfl

theorem decodeFb_view (key : BitVec 9) (d : Word) : (decodeFb key d).view = .fastBus := by
  unfold decodeFb decodeFbWrite decodeFbRead
  split <;> split <;> rfl

theorem rbInstrOf_view {op : RbOp} {i : Instr} (h : rbInstrOf op = some i) : i.view = .regBank := by
  cases op <;> simp only [rbInstrOf, Option.some.injEq, reduceCtorEq] at h
  · rw [← h]; exact decodeRb_view _ _
  · rw [← h]; exact decodeRb_view _ _

theorem fbInstrOf_view {inp : TickInput} {i : Instr} (h : fbInstrOf inp = some i) :
    i.view = .fastBus := by
  unfold fbInstrOf at h
  split at h
  · cases h; exact decodeFb_view _ _
  · cases h

/-- A step is the tick with what both ports present, whichever meaning it goes through. -/
theorem step_eq (s : State) : step s = runTick (regBankPort s) (fastBusPort s) s := by
  unfold step presentedInstr
  cases hr : rbInstrOf (currentInput s).rbOp with
  | some i => simp [exec_regBank (rbInstrOf_view hr), regBankPort, hr]
  | none =>
    cases hf : fbInstrOf (currentInput s) with
    | some j => simp [exec_fastBus (fbInstrOf_view hf), fastBusPort, hf]
    | none => simp [idleTick, regBankPort, fastBusPort, hr, hf]

/-! ## The contribution of a port operation -/

/-- What a register-bank write contributes, by its index (R257 to R289). -/
theorem hostEffect_rbWrite (idx : BitVec 5) (d : Word) (s : State) :
    hostEffect (decodeRbWrite idx d) s =
      { zero      := idx.toNat == 0
        capNext   := idx.toNat == 12
        schedNext := idx.toNat == 15
        arm       := if idx.toNat = 1 then some (d.getLsbD 0) else none
        force     := if idx.toNat = 2 then some (d.getLsbD 0) else none
        flushCap  := if idx.toNat = 3 then some (d.getLsbD 0) else none
        flushSch  := if idx.toNat = 4 then some (d.getLsbD 0) else none
        riseEn    := if idx.toNat = 6 then some (truncTo s.params.nch d) else none
        fallEn    := if idx.toNat = 7 then some (truncTo s.params.nch d) else none
        outEn     := if idx.toNat = 8 then some (truncTo s.params.nch d) else none
        schedTime := if idx.toNat = 13 then some (truncTo s.params.tw d) else none
        schedData := if idx.toNat = 14 then some (truncTo s.params.nch d) else none
        rdata     := none } := by
  obtain ⟨⟨n, hn⟩⟩ := idx
  change n < 32 at hn
  interval_cases n <;> rfl

/-- What a register-bank read contributes: the value its index returns and nothing else. -/
theorem hostEffect_rbRead (idx : BitVec 5) (s : State) :
    ∃ v, hostEffect (decodeRbRead idx) s = readEffect v ∧ RbReturns s idx.toNat v := by
  have htime : CapTimeReads s (captureTimeValue s (anyRbRead s.draws)) := by
    unfold CapTimeReads captureTimeValue
    cases s.capq
    · exact fits_truncTo _ _
    · rfl
  have hdata : CapDataReads s (captureDataValue s (anyRbRead s.draws)) := by
    unfold CapDataReads captureDataValue
    cases s.capq
    · exact fits_truncTo _ _
    · rfl
  obtain ⟨⟨n, hn⟩⟩ := idx
  change n < 32 at hn
  interval_cases n <;> first
    | exact ⟨_, rfl, htime⟩
    | exact ⟨_, rfl, hdata⟩
    | exact ⟨_, rfl, rfl⟩

/-- What an accepted fast-bus write contributes, by the low address byte (R304 to R317). -/
theorem hostEffect_fbWrite (adr : BitVec 8) (d : Word) (s : State) :
    hostEffect (decodeFbWrite adr d) s =
      { capNext   := adr.toNat == 3
        schedNext := adr.toNat == 6
        schedTime := if adr.toNat = 4 then some (truncTo s.params.tw d) else none
        schedData := if adr.toNat = 5 then some (truncTo s.params.nch d) else none } := by
  unfold decodeFbWrite
  split <;> rename_i h
  all_goals first
    | (rw [h]; rfl)
    | (have : adr.toNat ≠ 3 ∧ adr.toNat ≠ 4 ∧ adr.toNat ≠ 5 ∧ adr.toNat ≠ 6 := by
        refine ⟨?_, ?_, ?_, ?_⟩ <;> assumption
       simp [hostEffect, effectFbWrReserved, noEffect, this])

/-- What an accepted fast-bus read contributes: the value of its address and nothing else. -/
theorem hostEffect_fbRead (adr : BitVec 8) (s : State) :
    ∃ v, hostEffect (decodeFbRead adr) s = readEffect v ∧ FbReturns s adr.toNat v := by
  have htime : CapTimeReads s (captureTimeValue s (anyFbRead s.draws)) := by
    unfold CapTimeReads captureTimeValue
    cases s.capq
    · exact fits_truncTo _ _
    · rfl
  have hdata : CapDataReads s (captureDataValue s (anyFbRead s.draws)) := by
    unfold CapDataReads captureDataValue
    cases s.capq
    · exact fits_truncTo _ _
    · rfl
  unfold decodeFbRead
  split <;> rename_i h
  all_goals first
    | (rw [h]; exact ⟨_, rfl, htime⟩)
    | (rw [h]; exact ⟨_, rfl, hdata⟩)
    | (rw [h]; exact ⟨_, rfl, rfl⟩)
    | (refine ⟨0#32, rfl, ?_⟩
       have : adr.toNat ≠ 0 ∧ adr.toNat ≠ 1 ∧ adr.toNat ≠ 2 ∧ adr.toNat ≠ 4 ∧ adr.toNat ≠ 5 := by
         refine ⟨?_, ?_, ?_, ?_, ?_⟩ <;> assumption
       simp [FbReturns, this])

end Sys2Proof.Laws
end

