-- ==== Sys2Proof/Laws/Transition.lean ====
section
/-! SUPPORT. The transition as a whole: what `engineTick` makes of a state, and what each port contributes
to it by the inputs alone. -/

namespace Sys2Proof.Laws

open Sys2Proof.Machine Sys2Proof.Config Sys2Proof.Safety

/-! ## The transition -/

theorem w_le_of_valid {p : Params} (h : p.Valid) : p.w ≤ 32 := by
  have := h.2.2.2.1; unfold Params.w; omega
theorem nch_le_of_valid {p : Params} (h : p.Valid) : p.nch ≤ 32 := h.2.1

/-- The engine's part of the transition, whatever the views contribute (R331 parts 2 to 9). -/
theorem engineTick_engineRules (s : State) (hv : s.params.Valid) (rb fb : HostEffect) (a : Bool) :
    EngineRules s (currentInput s)
      ⟨rb.zero || fb.zero, rb.capNext || fb.capNext, rb.schedNext || fb.schedNext⟩
      (engineTick s rb fb a) := by
  have hn := nch_le_of_valid hv
  have hw := w_le_of_valid hv
  set inp := currentInput s with hi
  constructor
  · rfl
  · intro c hc
    rw [engineTick_level, newLevels_getLsbD hn]
    simp only [hc, decide_true, Bool.true_and]
    exact (channelEdge_spec s inp c).2.1
  · intro c hc
    rw [engineTick_level, newLevels_getLsbD hn]
    simp [Nat.not_lt.mpr hc]
  · rw [engineTick_counter, nextCounter_toNat hw]
    simp only [running_iff, ← hi]
  · intro c hr hwin hroom
    refine ⟨(channelEdge s inp c).sub.toNat, (channelEdge_spec s inp c).2.2 hwin.1.2.1, ?_⟩
    rw [engineTick_capq, nextCapq_eq, if_pos hroom, capturePush_of_wins hr hwin]
    simp [captureRecord, hi]
  · intro h
    rw [engineTick_capq, nextCapq_eq]
    rcases h with h | h | h
    · rw [(capturePush_eq_none s inp).mpr (.inl h)]; simp
    · rw [(capturePush_eq_none s inp).mpr (.inr h)]; simp
    · rw [if_neg (Nat.not_lt.mpr h)]; simp
  · intro hp hroom
    refine ⟨scheduleRecord s, scheduleRecord_spec s, ?_⟩
    rw [engineTick_schq, nextSchq_eq, if_pos hroom]
    simp only at hp
    simp only [hp, if_true, Option.toList, Bool.or_eq_true, fire_iff]
  · intro h
    rw [engineTick_schq, nextSchq_eq]
    simp only at h
    rcases h with h | h
    · simp only [h, Bool.false_eq_true, if_false, Option.toList, ite_self, List.append_nil,
        Bool.or_eq_true, fire_iff]
    · rw [if_neg (Nat.not_lt.mpr h)]
      simp only [List.append_nil, Bool.or_eq_true, fire_iff]
  · intro c k hc hk
    exact nextOutvec_getLsbD hn hc hk
  · exact overflowSignal_iff s inp
  · exact underflowSignal_iff s
  · exact running_iff s inp
  · rw [engineTick_pendOf, nextPendOf, latch_iff, overflowSignal_iff]
  · rw [engineTick_pendUf, nextPendUf, latch_iff, underflowSignal_iff]
  · rw [engineTick_pendStarted, nextPendStarted, latch_iff, running_iff]
  · rw [engineTick_pendStopped, nextPendStopped, latch_iff, ← running_iff]
    simp [hi]

/-- The outputs of the transition (R332). -/
theorem engineTick_outputRules (s : State) (hv : s.params.Valid) (rb fb : HostEffect) (a : Bool) :
    OutputRules s (currentInput s)
      ⟨rb.zero || fb.zero, rb.capNext || fb.capNext, rb.schedNext || fb.schedNext⟩
      (engineTick s rb fb a) := by
  obtain ⟨h0,h1,h2,h3,h4,h5,h6⟩ := conditionLines_getLsbD s (currentInput s) (rb.zero || fb.zero)
  constructor
  · rfl
  · intro c; exact outputDisable_getLsbD (nch_le_of_valid hv) c
  · rw [engineTick_out, tickOutputs_ev, h0]; simp [readable]
  · rw [engineTick_out, tickOutputs_ev, h1]; simp [writable]
  · rw [engineTick_out, tickOutputs_ev, h2]
  · rw [engineTick_out, tickOutputs_ev, h3]
  · rw [engineTick_out, tickOutputs_ev, h4]
  · rw [engineTick_out, tickOutputs_ev, h5]
  · rw [engineTick_out, tickOutputs_ev, h6]; exact wrapPulse_iff (w_le_of_valid hv) _ _
  · rfl
  · rfl

/-- The transition without what the views store and read. -/
theorem engineTick_tickRules (s : State) (hv : s.params.Valid) (rb fb : HostEffect) (a : Bool) :
    TickRules s ⟨rb.zero || fb.zero, rb.capNext || fb.capNext, rb.schedNext || fb.schedNext⟩
      (engineTick s rb fb a) :=
  ⟨engineTick_engineRules s hv rb fb a, engineTick_outputRules s hv rb fb a, rfl⟩

/-! ## What the ports contribute -/

/-- The storage registers after a contribution. -/
def putRegs (e : HostEffect) (h : HostRegs) : HostRegs :=
  ⟨e.arm.getD h.arm, e.force.getD h.force, e.flushCap.getD h.flushCap, e.flushSch.getD h.flushSch,
    e.riseEn.getD h.riseEn, e.fallEn.getD h.fallEn, e.outEn.getD h.outEn,
    e.schedTime.getD h.schedTime, e.schedData.getD h.schedData⟩

theorem hostRegs_engineTick (s : State) (rb fb : HostEffect) (a : Bool) :
    hostRegs (engineTick s rb fb a) = putRegs (rb.both fb) (hostRegs s) := rfl

theorem putRegs_both (rb fb : HostEffect) (h : HostRegs) :
    putRegs (rb.both fb) h = putRegs rb (putRegs fb h) := by
  have h : ∀ {α : Type} (a b : Option α) (d : α), (a.or b).getD d = a.getD (b.getD d) := by
    intro α a b d; cases a <;> rfl
  simp only [putRegs, HostEffect.both, h]

theorem putRegs_noEffect (h : HostRegs) : putRegs noEffect h = h := rfl

/-- What the fast-bus port contributes, by the inputs (R300 to R318). -/
theorem fastBusPort_effect (s : State) :
    let e := portEffect (accepted s (fastBusPort s))
    let inp := currentInput s
    e.zero = false ∧ e.capNext = fbWrites s inp 3 ∧ e.schedNext = fbWrites s inp 6 ∧
    (∀ h, putRegs e h = fbStores s inp h) ∧ ((accepted s (fastBusPort s)).isSome = fbAccepts s inp) ∧
    (∀ adr, fbReads s inp adr = true → FbReturns s adr (e.rdata.getD 0#32)) ∧
    ((∀ adr, fbReads s inp adr = false) → e.rdata.getD 0#32 = 0#32) := by
  intro e inp
  cases hack : s.fbAck with
  | true =>
    have he : accepted s (fastBusPort s) = none := by simp [accepted, hack]
    simp only [e, he, portEffect]
    simp [fbWrites, fbReads, fbAccepts, hack, noEffect, fbStores, putRegs]
  | false =>
    cases hreq : inp.fbReq with
    | false =>
      have he : accepted s (fastBusPort s) = none := by simp [accepted, fastBusPort, fbInstrOf, hack, inp, hreq]
      simp only [e, he, portEffect]
      simp [fbWrites, fbReads, fbAccepts, hack, hreq, noEffect, fbStores, putRegs]
    | true =>
      have hadr : (lowByte inp.fbAdr).toNat = inp.fbAdr % 256 := by simp [lowByte]
      have he : accepted s (fastBusPort s) = some
          (present (decodeFb (BitVec.ofBool inp.fbWe ++ lowByte inp.fbAdr) inp.fbWdata) s) := by
        have : (currentInput s).fbReq = true := hreq
        simp [accepted, fastBusPort, fbInstrOf, hack, this, inp]
      have hacc : fbAccepts s inp = true := by simp [fbAccepts, hack, hreq]
      have e' : e = hostEffect (decodeFb (BitVec.ofBool inp.fbWe ++ lowByte inp.fbAdr) inp.fbWdata) s :=
        by
        simp only [e, he, portEffect, present]
      rw [decodeFb_port] at e'
      cases hwe : inp.fbWe with
      | true =>
        rw [hwe, if_pos rfl, hostEffect_fbWrite] at e'
        simp only [hadr] at e'
        have hw : ∀ n, fbWrites s inp n = (inp.fbAdr % 256 == n) := by simp [fbWrites, hacc, hwe]
        have hr : ∀ n, fbReads s inp n = false := by simp [fbReads, hacc, hwe]
        rw [e', he]
        refine ⟨rfl, (hw 3).symm, (hw 6).symm, ?_, by simp [hacc], ?_, ?_⟩
        · intro h
          simp only [putRegs, fbStores, hw, beq_iff_eq]
          by_cases h4 : inp.fbAdr % 256 = 4
          · simp [h4]
          · by_cases h5 : inp.fbAdr % 256 = 5
            · simp [h5]
            · simp [h4, h5]
        · intro adr h; rw [hr] at h; cases h
        · intro _; rfl
      | false =>
        rw [hwe] at e'
        simp only [Bool.false_eq_true, if_false] at e'
        obtain ⟨v, hv, hret⟩ := hostEffect_fbRead (lowByte inp.fbAdr) s
        rw [hv] at e'
        rw [hadr] at hret
        have hw : ∀ n, fbWrites s inp n = false := by simp [fbWrites, hacc, hwe]
        have hr : ∀ n, fbReads s inp n = (inp.fbAdr % 256 == n) := by simp [fbReads, hacc, hwe]
        rw [e', he]
        refine ⟨rfl, (hw 3).symm, (hw 6).symm, ?_, by simp [hacc], ?_, ?_⟩
        · intro h; simp only [fbStores, hw]; rfl
        · intro adr h; rw [hr, beq_iff_eq] at h; subst h; exact hret
        · intro h; have := h (inp.fbAdr % 256); rw [hr] at this; simp at this

/-- What the register-bank port contributes, by the inputs (R255 to R290). -/
theorem regBankPort_effect (s : State) :
    let e := portEffect (regBankPort s)
    let inp := currentInput s
    e.zero = rbWrites inp 0 ∧ e.capNext = rbWrites inp 12 ∧ e.schedNext = rbWrites inp 15 ∧
    (∀ h, putRegs e h = rbStores s.params inp h) ∧
    (∀ idx, rbReads inp idx = true → ∃ v, e.rdata = some v ∧ RbReturns s idx v) ∧
    ((∀ idx, rbReads inp idx = false) → e.rdata = none) := by
  intro e inp
  cases hop : inp.rbOp with
  | none =>
    have : (currentInput s).rbOp = .none := hop
    have he : e = noEffect := by simp [e, regBankPort, rbInstrOf, this, portEffect]
    rw [he]
    simp [rbWrites, rbReads, hop, noEffect, rbStores, putRegs]
  | read idx =>
    have h1 : (currentInput s).rbOp = .read idx := hop
    have he : e = hostEffect (decodeRbRead idx) s := by
      simp [e, regBankPort, rbInstrOf, h1, portEffect, present]
    obtain ⟨v, hv, hret⟩ := hostEffect_rbRead idx s
    rw [he, hv]
    refine ⟨?_, ?_, ?_, ?_, ?_, ?_⟩
    · simp [rbWrites, hop]; rfl
    · simp [rbWrites, hop]; rfl
    · simp [rbWrites, hop]; rfl
    · intro h; simp [rbStores, hop]; rfl
    · intro i h; simp [rbReads, hop] at h; subst h; exact ⟨v, rfl, hret⟩
    · intro h; have := h idx.toNat; simp [rbReads, hop] at this
  | write idx d =>
    have h1 : (currentInput s).rbOp = .write idx d := hop
    have he : e = hostEffect (decodeRbWrite idx d) s := by
      simp [e, regBankPort, rbInstrOf, h1, portEffect, present]
    rw [he, hostEffect_rbWrite]
    refine ⟨?_, ?_, ?_, ?_, ?_, ?_⟩
    · simp [rbWrites, hop]
    · simp [rbWrites, hop]
    · simp [rbWrites, hop]
    · intro h
      simp only [rbStores, hop, putRegs]
      have := idx.isLt
      generalize idx.toNat = n at *
      interval_cases n <;> rfl
    · intro i h; simp [rbReads, hop] at h
    · intro _; rfl

/-- The resources of the accepted fast-bus request, by the inputs (R405). -/
theorem fastBusPort_resources (s : State) (b : Presented) (h : accepted s (fastBusPort s) = some b) :
    resourceReads b.instr = (if fbReads s (currentInput s) 0 then [.counter]
      else if fbReads s (currentInput s) 1 || fbReads s (currentInput s) 2 then [.capq]
      else if fbReads s (currentInput s) 4 then [.schedTime]
      else if fbReads s (currentInput s) 5 then [.schedData]
      else if fbWrites s (currentInput s) 6 then [.schedTime, .schedData]
      else []) ∧
    resourceWrites b.instr = (if fbWrites s (currentInput s) 3 then [.capq]
      else if fbWrites s (currentInput s) 4 then [.schedTime]
      else if fbWrites s (currentInput s) 5 then [.schedData]
      else if fbWrites s (currentInput s) 6 then [.schq]
      else []) := by
  unfold accepted at h
  split at h
  · cases h
  rename_i hack
  have hack : s.fbAck = false := by simpa using hack
  unfold fastBusPort fbInstrOf at h
  split at h
  swap
  · cases h
  rename_i hreq
  simp only [Option.map_some, Option.some.injEq] at h
  subst h
  have hadr : (lowByte (currentInput s).fbAdr).toNat = (currentInput s).fbAdr % 256 := by simp [lowByte]
  simp only [present, decodeFb_port, fbReads, fbWrites, fbAccepts, hreq, hack, ← hadr]
  cases hwe : (currentInput s).fbWe
  · simp only [Bool.false_eq_true, if_false]
    clear hadr
    unfold decodeFbRead
    split <;> rename_i h <;> simp_all [resourceReads, resourceWrites]
  · simp only [if_true]
    clear hadr
    unfold decodeFbWrite
    split <;> rename_i h <;> simp_all [resourceReads, resourceWrites]

/-- The resources of the register-bank operation, by the inputs (R405). -/
theorem regBankPort_resources (s : State) (b : Presented) (h : regBankPort s = some b) :
    resourceReads b.instr = (if rbReads (currentInput s) 9 then [.counter]
      else if rbReads (currentInput s) 10 || rbReads (currentInput s) 11 then [.capq]
      else if rbReads (currentInput s) 13 then [.schedTime]
      else if rbReads (currentInput s) 14 then [.schedData]
      else if rbWrites (currentInput s) 15 then [.schedTime, .schedData]
      else []) ∧
    resourceWrites b.instr = (if rbWrites (currentInput s) 0 then [.counter]
      else if rbWrites (currentInput s) 12 then [.capq]
      else if rbWrites (currentInput s) 13 then [.schedTime]
      else if rbWrites (currentInput s) 14 then [.schedData]
      else if rbWrites (currentInput s) 15 then [.schq]
      else []) := by
  unfold regBankPort at h
  cases hop : (currentInput s).rbOp with
  | none => simp [rbInstrOf, hop] at h
  | read idx =>
    simp only [rbInstrOf, hop, Option.map_some, Option.some.injEq, decodeRb_read] at h
    subst h
    simp only [present, rbReads, rbWrites, hop]
    unfold decodeRbRead
    split <;> rename_i h <;> simp_all [resourceReads, resourceWrites]
  | write idx d =>
    simp only [rbInstrOf, hop, Option.map_some, Option.some.injEq, decodeRb_write] at h
    subst h
    simp only [present, rbReads, rbWrites, hop]
    unfold decodeRbWrite
    split <;> rename_i h <;> simp_all [resourceReads, resourceWrites]
end Sys2Proof.Laws
end

