-- ==== Sys2Proof/Laws/Run.lean ====
section
/-! SUPPORT. Runs of several ticks: one tick after another, and the ticks in which the host does nothing. -/

namespace Sys2Proof.Laws

open Sys2Proof.Machine Sys2Proof.Config Sys2Proof.Safety

/-- A run whose first tick has a next state goes on from it. -/
theorem run_succ_of_next {n : Nat} {s t : State} (h : step s = .next t) :
    Sys2Proof.core.run (n + 1) s = Sys2Proof.core.run n t := by
  have h' : Sys2Proof.core.step s = .next t := h
  simp only [Host.Core.run, h']

/-- A run that ends in a state took its first tick to one. -/
theorem run_succ_next_cases {n : Nat} {s t : State} (h : Sys2Proof.core.run (n + 1) s = .next t) :
    ∃ u : State, step s = .next u ∧ Sys2Proof.core.run n u = .next t := by
  simp only [Host.Core.run] at h
  cases hs : Sys2Proof.core.step s with
  | next u => rw [hs] at h; exact ⟨u, hs, h⟩
  | fault r => rw [hs] at h; cases h
  | refused r => rw [hs] at h; cases h

/-- A tick in which the host does nothing (R290, R318). -/
theorem step_of_noHostOp {s : State} (h : NoHostOp (currentInput s)) :
    step s = .next (engineTick s noEffect noEffect false) := by
  obtain ⟨hr, hop, hreq⟩ := h
  have h1 : regBankPort s = none := by simp [regBankPort, hop, rbInstrOf]
  have h2 : fastBusPort s = none := by simp [fastBusPort, fbInstrOf, hreq]
  have h3 : accepted s none = none := by simp [accepted]
  have hn := runTick_next (s := s) (rb := none) (fb := none) hr (by simp)
  rw [h3] at hn
  rw [step_eq, h1, h2]
  exact hn

/-- The first tick of a state left alone, and what is left of it. -/
theorem leftAlone_succ {n : Nat} {s : State} (h : LeftAlone (n + 1) s) :
    NoHostOp (currentInput s) ∧ ∀ t : State, t.inputs = s.inputs.tail → LeftAlone n t := by
  obtain ⟨h1, h2⟩ := h
  cases hi : s.inputs with
  | nil => simp [hi] at h1
  | cons a l =>
    simp only [hi, List.take_succ_cons, List.mem_cons, forall_eq_or_imp, List.length_cons] at h1 h2
    have hc : currentInput s = a := by simp [currentInput, hi]
    refine ⟨hc ▸ h2.1, fun t ht => ?_⟩
    rw [List.tail_cons] at ht
    exact ⟨by rw [ht]; omega, by rw [ht]; exact h2.2⟩

end Sys2Proof.Laws
end

