-- ==== Sys2Proof/Tests/Slice0.lean ====
section
/-! SUPPORT. Tests: ill-formed terms, the words of every operation written out from the spec's encodings
(spec/30_encoding.md R110, R115; keys of R257 to R289, R303 to R317), one tick of every operation with the
values of spec/95_test_vectors.md, and a witness for the hypotheses of every statement that has some. -/

namespace Sys2Proof.Tests

open Sys2Proof Sys2Proof.Machine Sys2Proof.Config Sys2Proof.Safety

/-! ## Well-formedness: the ill-formed term of each check is refused -/

theorem test_wf_rbRdReserved_refused : (Instr.rbRdReserved 15#5).wellFormed = false := by decide
theorem test_wf_rbWrReserved_refused : (Instr.rbWrReserved 0#5 1#32).wellFormed = false := by decide
theorem test_wf_fbRdReserved_refused : (Instr.fbRdReserved 6#8).wellFormed = false := by decide
theorem test_wf_fbWrReserved_refused : (Instr.fbWrReserved 0#8 1#32).wellFormed = false := by decide

/-! ## Decoding: a word for every constructor, its key from the spec's encoding -/

theorem test_decode_rbWrCounterZero : decode .regBank [0x20#8, 0x78#8, 0x56#8, 0x34#8, 0x12#8] =
    .ok (.rbWrCounterZero 0x12345678#32) := by decide
theorem test_decode_rbRdCounterZero : decode .regBank [0x00#8, 0x00#8, 0x00#8, 0x00#8, 0x00#8] = .ok .rbRdCounterZero := by decide
theorem test_decode_rbWrArm : decode .regBank [0x21#8, 0x78#8, 0x56#8, 0x34#8, 0x12#8] =
    .ok (.rbWrArm 0x12345678#32) := by decide
theorem test_decode_rbRdArm : decode .regBank [0x01#8, 0x00#8, 0x00#8, 0x00#8, 0x00#8] = .ok .rbRdArm := by decide
theorem test_decode_rbWrForce : decode .regBank [0x22#8, 0x78#8, 0x56#8, 0x34#8, 0x12#8] =
    .ok (.rbWrForce 0x12345678#32) := by decide
theorem test_decode_rbRdForce : decode .regBank [0x02#8, 0x00#8, 0x00#8, 0x00#8, 0x00#8] = .ok .rbRdForce := by decide
theorem test_decode_rbWrFlushCapture : decode .regBank [0x23#8, 0x78#8, 0x56#8, 0x34#8, 0x12#8] =
    .ok (.rbWrFlushCapture 0x12345678#32) := by decide
theorem test_decode_rbRdFlushCapture : decode .regBank [0x03#8, 0x00#8, 0x00#8, 0x00#8, 0x00#8] = .ok .rbRdFlushCapture := by decide
theorem test_decode_rbWrFlushSchedule : decode .regBank [0x24#8, 0x78#8, 0x56#8, 0x34#8, 0x12#8] =
    .ok (.rbWrFlushSchedule 0x12345678#32) := by decide
theorem test_decode_rbRdFlushSchedule : decode .regBank [0x04#8, 0x00#8, 0x00#8, 0x00#8, 0x00#8] = .ok .rbRdFlushSchedule := by decide
theorem test_decode_rbWrLevel : decode .regBank [0x25#8, 0x78#8, 0x56#8, 0x34#8, 0x12#8] =
    .ok (.rbWrLevel 0x12345678#32) := by decide
theorem test_decode_rbRdLevel : decode .regBank [0x05#8, 0x00#8, 0x00#8, 0x00#8, 0x00#8] = .ok .rbRdLevel := by decide
theorem test_decode_rbWrRisingEn : decode .regBank [0x26#8, 0x78#8, 0x56#8, 0x34#8, 0x12#8] =
    .ok (.rbWrRisingEn 0x12345678#32) := by decide
theorem test_decode_rbRdRisingEn : decode .regBank [0x06#8, 0x00#8, 0x00#8, 0x00#8, 0x00#8] = .ok .rbRdRisingEn := by decide
theorem test_decode_rbWrFallingEn : decode .regBank [0x27#8, 0x78#8, 0x56#8, 0x34#8, 0x12#8] =
    .ok (.rbWrFallingEn 0x12345678#32) := by decide
theorem test_decode_rbRdFallingEn : decode .regBank [0x07#8, 0x00#8, 0x00#8, 0x00#8, 0x00#8] = .ok .rbRdFallingEn := by decide
theorem test_decode_rbWrOutputEn : decode .regBank [0x28#8, 0x78#8, 0x56#8, 0x34#8, 0x12#8] =
    .ok (.rbWrOutputEn 0x12345678#32) := by decide
theorem test_decode_rbRdOutputEn : decode .regBank [0x08#8, 0x00#8, 0x00#8, 0x00#8, 0x00#8] = .ok .rbRdOutputEn := by decide
theorem test_decode_rbWrCounter : decode .regBank [0x29#8, 0x78#8, 0x56#8, 0x34#8, 0x12#8] =
    .ok (.rbWrCounter 0x12345678#32) := by decide
theorem test_decode_rbRdCounter : decode .regBank [0x09#8, 0x00#8, 0x00#8, 0x00#8, 0x00#8] = .ok .rbRdCounter := by decide
theorem test_decode_rbWrCapTime : decode .regBank [0x2A#8, 0x78#8, 0x56#8, 0x34#8, 0x12#8] =
    .ok (.rbWrCapTime 0x12345678#32) := by decide
theorem test_decode_rbRdCapTime : decode .regBank [0x0A#8, 0x00#8, 0x00#8, 0x00#8, 0x00#8] = .ok .rbRdCapTime := by decide
theorem test_decode_rbWrCapData : decode .regBank [0x2B#8, 0x78#8, 0x56#8, 0x34#8, 0x12#8] =
    .ok (.rbWrCapData 0x12345678#32) := by decide
theorem test_decode_rbRdCapData : decode .regBank [0x0B#8, 0x00#8, 0x00#8, 0x00#8, 0x00#8] = .ok .rbRdCapData := by decide
theorem test_decode_rbWrCapNext : decode .regBank [0x2C#8, 0x78#8, 0x56#8, 0x34#8, 0x12#8] =
    .ok (.rbWrCapNext 0x12345678#32) := by decide
theorem test_decode_rbRdCapNext : decode .regBank [0x0C#8, 0x00#8, 0x00#8, 0x00#8, 0x00#8] = .ok .rbRdCapNext := by decide
theorem test_decode_rbWrSchedTime : decode .regBank [0x2D#8, 0x78#8, 0x56#8, 0x34#8, 0x12#8] =
    .ok (.rbWrSchedTime 0x12345678#32) := by decide
theorem test_decode_rbRdSchedTime : decode .regBank [0x0D#8, 0x00#8, 0x00#8, 0x00#8, 0x00#8] = .ok .rbRdSchedTime := by decide
theorem test_decode_rbWrSchedData : decode .regBank [0x2E#8, 0x78#8, 0x56#8, 0x34#8, 0x12#8] =
    .ok (.rbWrSchedData 0x12345678#32) := by decide
theorem test_decode_rbRdSchedData : decode .regBank [0x0E#8, 0x00#8, 0x00#8, 0x00#8, 0x00#8] = .ok .rbRdSchedData := by decide
theorem test_decode_rbWrSchedNext : decode .regBank [0x2F#8, 0x78#8, 0x56#8, 0x34#8, 0x12#8] =
    .ok (.rbWrSchedNext 0x12345678#32) := by decide
theorem test_decode_rbRdSchedNext : decode .regBank [0x0F#8, 0x00#8, 0x00#8, 0x00#8, 0x00#8] = .ok .rbRdSchedNext := by decide
theorem test_decode_rbRdReserved : decode .regBank [0x1F#8, 0x00#8, 0x00#8, 0x00#8, 0x00#8] = .ok (.rbRdReserved 31#5) := by decide
theorem test_decode_rbWrReserved : decode .regBank [0x30#8, 0x78#8, 0x56#8, 0x34#8, 0x12#8] =
    .ok (.rbWrReserved 16#5 0x12345678#32) := by decide
theorem test_decode_fbWrCounter : decode .fastBus [0x00#8, 0x01#8, 0x78#8, 0x56#8, 0x34#8, 0x12#8] =
    .ok (.fbWrCounter 0x12345678#32) := by decide
theorem test_decode_fbRdCounter : decode .fastBus [0x00#8, 0x00#8, 0x00#8, 0x00#8, 0x00#8, 0x00#8] = .ok .fbRdCounter := by decide
theorem test_decode_fbWrCapTime : decode .fastBus [0x01#8, 0x01#8, 0x78#8, 0x56#8, 0x34#8, 0x12#8] =
    .ok (.fbWrCapTime 0x12345678#32) := by decide
theorem test_decode_fbRdCapTime : decode .fastBus [0x01#8, 0x00#8, 0x00#8, 0x00#8, 0x00#8, 0x00#8] = .ok .fbRdCapTime := by decide
theorem test_decode_fbWrCapData : decode .fastBus [0x02#8, 0x01#8, 0x78#8, 0x56#8, 0x34#8, 0x12#8] =
    .ok (.fbWrCapData 0x12345678#32) := by decide
theorem test_decode_fbRdCapData : decode .fastBus [0x02#8, 0x00#8, 0x00#8, 0x00#8, 0x00#8, 0x00#8] = .ok .fbRdCapData := by decide
theorem test_decode_fbWrCapNext : decode .fastBus [0x03#8, 0x01#8, 0x78#8, 0x56#8, 0x34#8, 0x12#8] =
    .ok (.fbWrCapNext 0x12345678#32) := by decide
theorem test_decode_fbRdCapNext : decode .fastBus [0x03#8, 0x00#8, 0x00#8, 0x00#8, 0x00#8, 0x00#8] = .ok .fbRdCapNext := by decide
theorem test_decode_fbWrSchedTime : decode .fastBus [0x04#8, 0x01#8, 0x78#8, 0x56#8, 0x34#8, 0x12#8] =
    .ok (.fbWrSchedTime 0x12345678#32) := by decide
theorem test_decode_fbRdSchedTime : decode .fastBus [0x04#8, 0x00#8, 0x00#8, 0x00#8, 0x00#8, 0x00#8] = .ok .fbRdSchedTime := by decide
theorem test_decode_fbWrSchedData : decode .fastBus [0x05#8, 0x01#8, 0x78#8, 0x56#8, 0x34#8, 0x12#8] =
    .ok (.fbWrSchedData 0x12345678#32) := by decide
theorem test_decode_fbRdSchedData : decode .fastBus [0x05#8, 0x00#8, 0x00#8, 0x00#8, 0x00#8, 0x00#8] = .ok .fbRdSchedData := by decide
theorem test_decode_fbWrSchedNext : decode .fastBus [0x06#8, 0x01#8, 0x78#8, 0x56#8, 0x34#8, 0x12#8] =
    .ok (.fbWrSchedNext 0x12345678#32) := by decide
theorem test_decode_fbRdSchedNext : decode .fastBus [0x06#8, 0x00#8, 0x00#8, 0x00#8, 0x00#8, 0x00#8] = .ok .fbRdSchedNext := by decide
theorem test_decode_fbRdReserved : decode .fastBus [0x07#8, 0x00#8, 0x00#8, 0x00#8, 0x00#8, 0x00#8] = .ok (.fbRdReserved 7#8) := by decide
theorem test_decode_fbWrReserved : decode .fastBus [0xFF#8, 0x01#8, 0x78#8, 0x56#8, 0x34#8, 0x12#8] =
    .ok (.fbWrReserved 0xFF#8 0x12345678#32) := by decide

theorem test_decode_refuses_length : decode .regBank [0x20#8, 0x00#8] =
    .error (.wrongLength .regBank 2) := by decide
theorem test_decode_refuses_unused_rb_bits : decode .regBank [0x40#8, 0x00#8, 0x00#8, 0x00#8, 0x00#8] =
    .error (.unusedKeyBits .regBank 0x40) := by decide
theorem test_decode_refuses_unused_fb_bits :
    decode .fastBus [0x00#8, 0x02#8, 0x00#8, 0x00#8, 0x00#8, 0x00#8] =
      .error (.unusedKeyBits .fastBus 0x200) := by decide
theorem test_decodeTableWord_full_mask_before_reserved :
    decodeTableWord 8 0x21 = some (.rbWrArm 0#32) ∧ decodeTableWord 8 0x3F = some (.rbWrReserved 31#5 0#32) ∧
    decodeTableWord 16 0x100 = some (.fbWrCounter 0#32) ∧
    decodeTableWord 16 0x107 = some (.fbWrReserved 7#8 0#32) ∧ decodeTableWord 8 0x40 = none := by decide

/-! ## One tick of every operation (T9, T10) -/

/-- A block of the reference instance `HI32` in the middle of its work, its lines steady. -/
def busy : State :=
  { State.reset with
    level := 0xA5#32, riseEn := 0x24#32, fallEn := 0x02#32, outEn := 0x05#32, counter := 77#32
    arm := true, force := true, schedTime := 343#32, schedData := 0xA5#32
    capq := [⟨100#32, 5#3, 0x08#32⟩, ⟨101#32, 0#3, 0x00#32⟩], schq := [⟨90#32, 2#3, 0x01#32⟩]
    inputs := [quietInput 0xA5#32] }

/-- The reset state with quiet inputs. -/
def idle : State := { State.reset with inputs := [quietInput 0#32] }

/-- The next state of an outcome. -/
def nextOf : Host.Outcome State Fault Refusal → Option State
  | .next t => some t
  | .fault _ => none
  | .refused _ => none

/-- What a register-bank read returns. -/
def rbRead (i : Instr) (s : State) : Option Word := (nextOf (exec i s)).bind fun t => t.out.rbRdata

/-- `fb_ack` and `fb_rdata` after a fast-bus operation. -/
def fbRead (i : Instr) (s : State) : Option (Bool × Word) :=
  (nextOf (exec i s)).map fun t => (t.fbAck, t.fbRdata)

/-- Some fields of the state after an operation. -/
def after {α : Type} (i : Instr) (s : State) (f : State → α) : Option α := (nextOf (exec i s)).map f

theorem test_rbWrCounterZero : after (.rbWrCounterZero 5#32) busy (fun t => (t.counter, t.schedTime)) = some (0#32, 343#32) := by decide
theorem test_rbRdCounterZero : rbRead .rbRdCounterZero busy = some 0#32 := by decide
theorem test_rbWrArm : after (.rbWrArm 0xFFFFFFFF#32) idle (fun t => (t.arm, t.force)) = some (true, false) := by decide
theorem test_rbWrArm_bit0_only : after (.rbWrArm 2#32) busy (fun t => t.arm) = some false := by decide
theorem test_rbRdArm : rbRead .rbRdArm busy = some 1#32 := by decide
theorem test_rbWrForce : after (.rbWrForce 1#32) idle (fun t => (t.force, t.counter)) = some (true, 0#32) := by decide
theorem test_rbRdForce : rbRead .rbRdForce idle = some 0#32 := by decide
theorem test_rbWrFlushCapture : after (.rbWrFlushCapture 1#32) busy (fun t => (t.flushCap, t.capq.length)) = some (true, 2) := by decide
theorem test_rbRdFlushCapture : rbRead .rbRdFlushCapture { busy with flushCap := true } = some 1#32 := by decide
theorem test_rbWrFlushSchedule : after (.rbWrFlushSchedule 1#32) busy (fun t => (t.flushSch, t.schq.length)) = some (true, 1) := by decide
theorem test_rbRdFlushSchedule : rbRead .rbRdFlushSchedule { busy with flushSch := true } = some 1#32 := by decide
theorem test_rbWrLevel : after (.rbWrLevel 0xFF#32) busy (fun t => t.level) = some 0xA5#32 := by decide
theorem test_rbRdLevel : rbRead .rbRdLevel busy = some 0xA5#32 := by decide
theorem test_rbWrRisingEn : after (.rbWrRisingEn 0x1FF#32) busy (fun t => (t.riseEn, t.fallEn)) = some (0xFF#32, 0x02#32) := by decide
theorem test_rbRdRisingEn : rbRead .rbRdRisingEn busy = some 0x24#32 := by decide
theorem test_rbWrFallingEn : after (.rbWrFallingEn 0x81#32) busy (fun t => (t.fallEn, t.riseEn)) = some (0x81#32, 0x24#32) := by decide
theorem test_rbRdFallingEn : rbRead .rbRdFallingEn busy = some 0x02#32 := by decide
theorem test_rbWrOutputEn : after (.rbWrOutputEn 0x01#32) busy (fun t => (t.outEn, t.out.oeN)) = some (0x01#32, 0xFA#32) := by decide
theorem test_rbRdOutputEn : rbRead .rbRdOutputEn busy = some 0x05#32 := by decide
theorem test_rbWrCounter : after (.rbWrCounter 5#32) busy (fun t => t.counter) = some 78#32 := by decide
theorem test_rbRdCounter : rbRead .rbRdCounter busy = some 77#32 := by decide
theorem test_rbWrCapTime : after (.rbWrCapTime 9#32) busy (fun t => t.capq) = some busy.capq := by decide
theorem test_rbRdCapTime : rbRead .rbRdCapTime busy = some 805#32 := by decide
theorem test_rbWrCapData : after (.rbWrCapData 9#32) busy (fun t => t.capq) = some busy.capq := by decide
theorem test_rbRdCapData : rbRead .rbRdCapData busy = some 0x08#32 := by decide
theorem test_rbWrCapNext : after (.rbWrCapNext 0#32) busy (fun t => t.capq) = some [⟨101#32, 0#3, 0x00#32⟩] := by decide
theorem test_rbWrCapNext_empty : after (.rbWrCapNext 0#32) idle (fun t => (t.capq, t.pendOf)) = some ([], false) := by decide
theorem test_rbRdCapNext : rbRead .rbRdCapNext busy = some 0#32 := by decide
theorem test_rbWrSchedTime : after (.rbWrSchedTime 322#32) busy (fun t => (t.schedTime, t.schq.length)) = some (322#32, 1) := by decide
theorem test_rbRdSchedTime : rbRead .rbRdSchedTime busy = some 343#32 := by decide
theorem test_rbWrSchedData : after (.rbWrSchedData 0x1A5#32) idle (fun t => t.schedData) = some 0xA5#32 := by decide
theorem test_rbRdSchedData : rbRead .rbRdSchedData busy = some 0xA5#32 := by decide
theorem test_rbWrSchedNext : after (.rbWrSchedNext 7#32) busy (fun t => t.schq) = 
    some [⟨90#32, 2#3, 0x01#32⟩, ⟨42#32, 7#3, 0xA5#32⟩] := by decide
theorem test_rbWrSchedNext_low : after (.rbWrSchedNext 7#32) { busy with params := lo32 } (fun t => t.schq) = 
    some [⟨90#32, 2#3, 0x01#32⟩, ⟨343#32, 0#3, 0xA5#32⟩] := by decide
theorem test_rbRdSchedNext : rbRead .rbRdSchedNext busy = some 0#32 := by decide
theorem test_rbRdReserved : rbRead (.rbRdReserved 16#5) busy = some 0#32 := by decide
theorem test_rbWrReserved : after (.rbWrReserved 31#5 0xFFFFFFFF#32) busy (fun t => hostRegs t) = some (hostRegs busy) := by decide
theorem test_fbWrCounter : after (.fbWrCounter 5#32) busy (fun t => (t.counter, t.fbAck)) = some (78#32, true) := by decide
theorem test_fbRdCounter : fbRead .fbRdCounter busy = some (true, 77#32) := by decide
theorem test_fbWrCapTime : after (.fbWrCapTime 5#32) busy (fun t => (t.capq, t.fbAck)) = some (busy.capq, true) := by decide
theorem test_fbRdCapTime : fbRead .fbRdCapTime busy = some (true, 805#32) := by decide
theorem test_fbWrCapData : after (.fbWrCapData 5#32) busy (fun t => (t.capq, t.fbAck)) = some (busy.capq, true) := by decide
theorem test_fbRdCapData : fbRead .fbRdCapData busy = some (true, 0x08#32) := by decide
theorem test_fbWrCapNext : after (.fbWrCapNext 0#32) busy (fun t => t.capq) = some [⟨101#32, 0#3, 0x00#32⟩] := by decide
theorem test_fbWrCapNext_in_acknowledge_tick : after (.fbWrCapNext 0#32) { busy with fbAck := true } (fun t =>
    (t.capq, t.fbAck)) = some (busy.capq, false) := by decide
theorem test_fbRdCapNext : fbRead .fbRdCapNext busy = some (true, 0#32) := by decide
theorem test_fbWrSchedTime : after (.fbWrSchedTime 322#32) busy (fun t => t.schedTime) = some 322#32 := by decide
theorem test_fbRdSchedTime : fbRead .fbRdSchedTime busy = some (true, 343#32) := by decide
theorem test_fbWrSchedData : after (.fbWrSchedData 0x100#32) busy (fun t => t.schedData) = some 0#32 := by decide
theorem test_fbRdSchedData : fbRead .fbRdSchedData busy = some (true, 0xA5#32) := by decide
theorem test_fbWrSchedNext : after (.fbWrSchedNext 7#32) busy (fun t => t.schq) = 
    some [⟨90#32, 2#3, 0x01#32⟩, ⟨42#32, 7#3, 0xA5#32⟩] := by decide
theorem test_fbRdSchedNext : fbRead .fbRdSchedNext busy = some (true, 0#32) := by decide
theorem test_fbRdReserved : fbRead (.fbRdReserved 0x40#8) busy = some (true, 0#32) := by decide
theorem test_fbWrReserved : after (.fbWrReserved 0x07#8 1#32) busy (fun t => (hostRegs t, t.fbAck)) = some (hostRegs busy, true) := by decide

/-! ## The engine (T2, T4, T6, T7, T8, T12) -/

theorem test_edge_two_transitions : edgeHigh 0xFE#8 true true true = ⟨true, 0#3, false⟩ := by decide
theorem test_edge_disabled_still_flips : edgeHigh 0x80#8 false false false = ⟨false, 7#3, true⟩ := by decide
theorem test_edge_low_falling : edgeLow false true false true = ⟨true, 0#3, false⟩ := by decide
theorem test_pulse_after_edge : pulseHigh 0xFC#8 true false 2#3 = 0x03#8 := by decide
theorem test_pulse_no_edge : pulseHigh 0xFF#8 true true 5#3 = 0xFF#8 := by decide

/-- Lines at `levels` but for channel `c`, which shows the samples `v`. -/
def edgeInput (levels : Word) (c : Nat) (v : Samples) : TickInput :=
  { quietInput levels with samp := Vector.ofFn fun d : Fin 32 =>
      if d.val = c then v else rep8 (levels.getLsbD d.val) }

/-- Channels 2 and 5 rise in one tick, channel 5 first (T4 row 5). -/
def collision : State :=
  { State.reset with
    force := true, counter := 100#32, riseEn := 0x24#32
    inputs := [{ quietInput 0#32 with samp := Vector.ofFn fun d : Fin 32 =>
      if d.val = 2 then 0xFC#8 else if d.val = 5 then 0xE0#8 else 0x00#8 }] }

theorem test_collision_lowest_channel_wins : (nextOf (step collision)).map (fun t => t.capq) =
    some [⟨100#32, 2#3, 0x24#32⟩] := by decide

/-- Row 7 of T5: the Capture Queue of `HI8` full, a new edge, and a pop in the same tick. -/
def fullQueue : State :=
  { State.resetOf hi8 with
    force := true, riseEn := 0x01#32, counter := 9#32, prevRunning := true
    capq := [⟨1#32, 0#3, 1#32⟩, ⟨2#32, 0#3, 0#32⟩, ⟨3#32, 0#3, 1#32⟩, ⟨4#32, 0#3, 0#32⟩]
    inputs := [edgeInput 0#32 0 0xFC#8] }

theorem test_overflow_with_pop : after (.rbWrCapNext 0#32) fullQueue (fun t =>
    (t.capq.map fun r => r.cycle, t.pendOf, t.level, t.counter)) =
    some ([2#32, 3#32, 4#32], true, 1#32, 10#32) := by decide

/-- The counter of `HI8` at its maximum (T6 row 4). -/
def atWrap : State :=
  { State.resetOf hi8 with counter := 31#32, force := true, inputs := [quietInput 0#32] }

theorem test_wrap : (nextOf (step atWrap)).map (fun t => (t.counter, t.out.ev)) =
    some (0#32, 0b1000010#7) := by decide
theorem test_zero_strobe_suppresses_wrap : after (.rbWrCounterZero 0#32) atWrap (fun t =>
    (t.counter, t.out.ev)) = some (0#32, 0b0000010#7) := by decide

/-- A record for count 0 in a block that does not run (T8 row 8). -/
def stoppedFire : State :=
  { State.resetOf hi8 with schq := [⟨0#32, 2#3, 0x03#32⟩], inputs := [quietInput 0#32] }

/-- The same with a record for count 1. -/
def stoppedWait : State := { stoppedFire with schq := [⟨1#32, 2#3, 0x03#32⟩] }

theorem test_fire_while_stopped : (nextOf (step stoppedFire)).map (fun t =>
    (lane t.outvec 0, lane t.outvec 1, lane t.outvec 2, t.schq)) =
    some (0xFC#8, 0xFC#8, 0x00#8, []) := by decide

theorem test_flush_underflow : (nextOf (step { State.resetOf hi8 with
    flushSch := true, counter := 4#32, schq := [⟨5#32, 2#3, 1#32⟩], inputs := [quietInput 0#32] })).map
      (fun t => (t.schq, t.pendUf, lane t.outvec 0)) = some ([], true, 0x00#8) := by decide

/-- A tick of the busy block with both views' requests. -/
def both (op : RbOp) (we : Bool) (adr : Nat) : State :=
  { busy with inputs := [{ quietInput 0xA5#32 with rbOp := op, fbReq := true, fbWe := we, fbAdr := adr }] }

/-- The fault of an outcome. -/
def faultOf : Host.Outcome State Fault Refusal → Option Fault
  | .next _ => none
  | .fault f => some f
  | .refused _ => none

theorem test_hazard_pops : faultOf (step (both (.write 12#5 0#32) true 3)) =
    some (.dualViewRace (.rbWrCapNext 0#32) (.fbWrCapNext 0#32)) := by decide
theorem test_two_reads_are_no_hazard : (nextOf (step (both (.read 9#5) false 0))).map (fun t =>
    (t.out.rbRdata, t.fbRdata)) = some (some 77#32, 77#32) := by decide

/-- The busy block in a reset tick. -/
def resetting : State :=
  { busy with inputs := [{ quietInput 0xA5#32 with rst := true, rbOp := .write 2#5 1#32 }] }

theorem test_reset_tick : (nextOf (step resetting)).map (fun t =>
    (t.counter, t.force, t.capq, t.out.ev)) = some (0#32, false, [], 0b0000011#7) := by decide
theorem test_placed_request_runs : (nextOf (step (State.reset.withFetchWord 8 0x22))).map (fun t =>
    (t.force, t.out.rbRdata)) = some (false, none) := by decide
theorem test_placed_fast_bus_request_runs : (nextOf (step
    (State.reset.withFetchWord 48 (0x104 + 343 * 65536)))).map (fun t =>
      (t.schedTime, t.fbAck)) = some (343#32, true) := by decide

/-! ## Samplers and the trace notation (T1, R131) -/

theorem test_serialize_then_sample :
    (deserializerRun 8 ⟨0x5A#8, 0⟩ (serialize 8 0x18#8 ++ serialize 8 0xFE#8)).2 =
      [0x18#8, 0xFE#8] := by decide
theorem test_line_driven_while_enabled : (nextOf (step stoppedFire)).map (fun t =>
    (lineOut t.out 0 2, lineOut { t.out with oeN := 0#32 } 0 1, lineOut { t.out with oeN := 0#32 } 0 2)) =
    some (none, some false, some true) := by decide
theorem test_trace_push_encodes : (traceRbPush (traceTs .high 40 2) 1#32).map (fun l => rbInstrOf l.rbOp) =
    [some (.rbWrSchedTime 322#32), some (.rbWrSchedData 1#32), some (.rbWrSchedNext 0#32)] := by decide

/-! ## Witnesses: states and operands that meet the hypotheses of a statement -/

/-- A tick of the busy block with one register-bank operation. -/
def rbTick (op : RbOp) : State := { busy with inputs := [{ quietInput 0xA5#32 with rbOp := op }] }

/-- A tick of the busy block with one fast-bus request. -/
def fbTick (we : Bool) (adr : Nat) (d : Word) : State :=
  { busy with inputs :=
      [{ quietInput 0xA5#32 with fbReq := true, fbWe := we, fbAdr := adr, fbWdata := d }] }

/-- The smallest legal block: one channel, low resolution, one-bit time, queues of one record. -/
def smallest : Params := ⟨1, .low, 1, 1, 1, 8⟩

/-- The largest legal words: 32 channels, high resolution, a timestamp of 32 bits. -/
def widest : Params := ⟨32, .high, 32, 128, 128, 32⟩

/-- Channel 7 alone rises, in its last phase. -/
def oneEdge : State :=
  { State.reset with
    force := true, counter := 100#32, riseEn := 0x80#32, inputs := [edgeInput 0#32 7 0x80#8] }

/-- Both queues held in a drain, two quiet ticks ahead. -/
def draining : State :=
  { State.reset with
    flushCap := true, flushSch := true, counter := 9#32
    capq := [⟨1#32, 0#3, 1#32⟩, ⟨2#32, 0#3, 0#32⟩], schq := [⟨3#32, 0#3, 1#32⟩, ⟨4#32, 0#3, 0#32⟩]
    inputs := [quietInput 0#32, quietInput 0#32] }

/-- Every pending bit set, one quiet tick ahead. -/
def pending : State :=
  { idle with pendOf := true, pendUf := true, pendStarted := true, pendStopped := true }

/-- The records of R251, the counter at the first and the run ending at the second. -/
def scheduled : State :=
  { State.reset with
    force := true, counter := 40#32
    schq := [⟨40#32, 2#3, 0x01#32⟩, ⟨42#32, 7#3, 0x00#32⟩]
    inputs := [quietInput 0#32, quietInput 0#32, quietInput 0#32] }

theorem witness_DecodeOfEncode : (Instr.rbRdReserved 16#5).wellFormed = true ∧ (Instr.rbWrReserved 31#5 0#32).wellFormed = true ∧
    (Instr.fbRdReserved 7#8).wellFormed = true ∧ (Instr.fbWrReserved 0xFF#8 0#32).wellFormed = true := by decide
theorem witness_EncodeOfDecode : decode .regBank [0x20#8, 1#8, 0#8, 0#8, 0#8] = .ok (.rbWrCounterZero 1#32) ∧
    32 ≤ requestKey (.regBank, [0x20#8, 1#8, 0#8, 0#8, 0#8]) ∧
    decode .fastBus [0xFF#8, 0#8, 1#8, 0#8, 0#8, 0#8] = .ok (.fbRdReserved 0xFF#8) ∧
    decode .fastBus [0x00#8, 1#8, 1#8, 0#8, 0#8, 0#8] = .ok (.fbWrCounter 1#32) ∧
    256 ≤ requestKey (.fastBus, [0x00#8, 1#8, 1#8, 0#8, 0#8, 0#8]) := by decide
theorem witness_EncodeFollowsOpcodeTable : (Instr.rbRdReserved 31#5).wellFormed = true ∧ (Instr.fbWrReserved 7#8 0#32).wellFormed = true := by decide
theorem witness_StepRunsDecodedOperation : (currentInput (rbTick (.write 0#5 1#32))).rbOp = .write 0#5 1#32 ∧
    decode .regBank ((1#1 ++ 0#5).setWidth 8 :: bytesOfWord 1#32) = .ok (.rbWrCounterZero 1#32) ∧
    (currentInput (rbTick (.read 31#5))).rbOp = .read 31#5 ∧
    decode .regBank ((0#1 ++ 31#5).setWidth 8 :: bytesOfWord 0#32) = .ok (.rbRdReserved 31#5) ∧
    (currentInput (fbTick true 0xFF 1#32)).rbOp = .none ∧ (currentInput (fbTick true 0xFF 1#32)).fbReq = true ∧
    decode .fastBus (lowByte 0xFF :: (BitVec.ofBool true).setWidth 8 :: bytesOfWord 1#32) =
      .ok (.fbWrReserved 0xFF#8 1#32) ∧
    (currentInput busy).rbOp = .none ∧ (currentInput busy).fbReq = false := by decide
theorem witness_EitherViewGivesTheSameTick : rbInstrOf (currentInput (both (.read 9#5) true 3)).rbOp = some .rbRdCounter ∧
    fbInstrOf (currentInput (both (.read 9#5) true 3)) = some (.fbWrCapNext 0#32) := by decide
theorem witness_PlacedRequestRuns : decodeTableWord 8 0x3F = some (.rbWrReserved 31#5 0#32) ∧
    decodeTableWord 9 0x1FF = some (.fbWrReserved 0xFF#8 0#32) := by decide
theorem witness_FastBusAddressAliases : (fbTick true 0x103 0#32).inputs = currentInput (fbTick true 0x103 0#32) :: [] := by decide
theorem witness_TickFollowsTransition_reset : resetting.params.Valid ∧ (currentInput resetting).rst = true := by decide
theorem witness_TickFollowsTransition_next : busy.params.Valid ∧ (currentInput busy).rst = false ∧ ¬ HazardTick busy (currentInput busy) := by decide
theorem witness_ResetTickGivesResetState : (currentInput resetting).rst = true := by decide
theorem witness_ResetTickOutputs : resetting.params.Valid ∧ (currentInput resetting).rst = true ∧
    (nextOf (step resetting)).isSome = true := by decide
theorem witness_ResetStateIsAsStated : smallest.Valid ∧ widest.Valid ∧ hi8.Valid ∧ lo32.Valid ∧
    (nextOf (step { State.resetOf smallest with inputs := [quietInput 1#32] })).isSome = true := by decide
theorem witness_HazardPairsStopTheTick : (currentInput (both (.write 0#5 0#32) false 0)).rst = false ∧
    HazardTick (both (.write 0#5 0#32) false 0) (currentInput (both (.write 0#5 0#32) false 0)) ∧
    ¬ HazardTick (both (.write 0#5 0#32) true 0) (currentInput (both (.write 0#5 0#32) true 0)) := by decide
theorem witness_OnlyARaceStops : (currentInput (both (.write 13#5 0#32) true 4)).rst = false ∧ (both (.write 13#5 0#32) true 4).fbAck = false ∧
    (Instr.rbWrSchedTime 0#32).view = .regBank ∧ (Instr.fbWrSchedTime 0#32).view = .fastBus ∧
    fbInstrOf (currentInput (both (.write 13#5 0#32) true 4)) = some (.fbWrSchedTime 0#32) ∧
    rbInstrOf (currentInput (both (.write 13#5 0#32) true 4)).rbOp = some (.rbWrSchedTime 0#32) ∧
    collide (.rbWrSchedTime 0#32) (.fbWrSchedTime 0#32) = true := by decide
theorem witness_EveryStepKeepsInvariant_busy : Inv busy :=
  ⟨by decide, by decide, by decide, by decide, by decide, ⟨by decide, by decide⟩, by decide⟩
theorem witness_EveryStepKeepsInvariant_fullQueue : Inv fullQueue :=
  ⟨by decide, by decide, by decide, by decide, by decide, ⟨by decide, by decide⟩, by decide⟩
theorem witness_EveryStepKeepsInvariant_next : (nextOf (step busy)).isSome = true ∧
    (nextOf (exec (.rbWrCapNext 0#32) fullQueue)).isSome = true := by decide
theorem witness_ResetHasInvariant : smallest.Valid ∧ widest.Valid := by decide
theorem witness_AcknowledgeLastsOneTick : (nextOf (step { fbTick true 3 0#32 with fbAck := true })).isSome = true ∧
    { fbTick true 3 0#32 with fbAck := true }.fbAck = true ∧
    (nextOf (step (fbTick true 3 0#32))).isSome = true ∧ (fbTick true 3 0#32).fbAck = false ∧
    (currentInput (fbTick true 3 0#32)).rst = false := by decide
theorem witness_CaptureCountsStayOrdered : fullQueue.params.Valid ∧ Fits fullQueue.params.w fullQueue.counter ∧ CapturesOrdered fullQueue ∧
    (currentInput fullQueue).rst = false ∧ (strobesOf fullQueue (currentInput fullQueue)).zero = false ∧
    ¬ (Running fullQueue (currentInput fullQueue) ∧ fullQueue.counter.toNat = 2 ^ fullQueue.params.w - 1) ∧
    (nextOf (step fullQueue)).isSome = true := by decide
theorem witness_ControlBitWritesComplete : busy.params.Valid ∧ (currentInput busy).rst = false := by decide
theorem witness_EnableWritesComplete : busy.params.Valid ∧ (currentInput busy).rst = false := by decide
theorem witness_RbIgnoredWritesComplete : busy.params.Valid ∧ (currentInput busy).rst = false := by decide
theorem witness_RbStrobeReadsComplete : busy.params.Valid ∧ (currentInput busy).rst = false := by decide
theorem witness_StorageReadsComplete : busy.params.Valid ∧ (currentInput busy).rst = false := by decide
theorem witness_RbWordReadsComplete : busy.params.Valid ∧ (currentInput busy).rst = false := by decide
theorem witness_RbScheduleInputWritesComplete : (fbTick true 5 0#32).params.Valid ∧ (currentInput (fbTick true 5 0#32)).rst = false ∧
    fbWrites (fbTick true 5 0#32) (currentInput (fbTick true 5 0#32)) 6 = false ∧
    fbReads (fbTick true 5 0#32) (currentInput (fbTick true 5 0#32)) 4 = false ∧
    fbWrites (fbTick true 5 0#32) (currentInput (fbTick true 5 0#32)) 4 = false ∧
    fbWrites (fbTick true 4 0#32) (currentInput (fbTick true 4 0#32)) 6 = false ∧
    fbReads (fbTick true 4 0#32) (currentInput (fbTick true 4 0#32)) 5 = false ∧
    fbWrites (fbTick true 4 0#32) (currentInput (fbTick true 4 0#32)) 5 = false := by decide
theorem witness_CounterZeroCompletes : (fbTick false 1 0#32).params.Valid ∧ (currentInput (fbTick false 1 0#32)).rst = false ∧
    fbReads (fbTick false 1 0#32) (currentInput (fbTick false 1 0#32)) 0 = false := by decide
theorem witness_RbCaptureNextCompletes : (fbTick true 4 0#32).params.Valid ∧ (currentInput (fbTick true 4 0#32)).rst = false ∧
    fbReads (fbTick true 4 0#32) (currentInput (fbTick true 4 0#32)) 1 = false ∧
    fbReads (fbTick true 4 0#32) (currentInput (fbTick true 4 0#32)) 2 = false ∧
    fbWrites (fbTick true 4 0#32) (currentInput (fbTick true 4 0#32)) 3 = false := by decide
theorem witness_RbScheduleNextCompletes : (fbTick true 3 0#32).params.Valid ∧ (currentInput (fbTick true 3 0#32)).rst = false ∧
    fbWrites (fbTick true 3 0#32) (currentInput (fbTick true 3 0#32)) 4 = false ∧
    fbWrites (fbTick true 3 0#32) (currentInput (fbTick true 3 0#32)) 5 = false ∧
    fbWrites (fbTick true 3 0#32) (currentInput (fbTick true 3 0#32)) 6 = false := by decide
theorem witness_RbReservedCompletes : busy.params.Valid ∧ (currentInput busy).rst = false ∧ 16 ≤ (16#5).toNat ∧ 16 ≤ (31#5).toNat := by decide
theorem witness_RbScheduleInputReadsComplete : (fbTick true 6 0#32).params.Valid ∧ (currentInput (fbTick true 6 0#32)).rst = false ∧
    fbWrites (fbTick true 6 0#32) (currentInput (fbTick true 6 0#32)) 4 = false ∧
    fbWrites (fbTick true 6 0#32) (currentInput (fbTick true 6 0#32)) 5 = false := by decide
theorem witness_RbCaptureHeadReadsComplete : busy.params.Valid ∧ (currentInput busy).rst = false ∧ fbWrites busy (currentInput busy) 3 = false ∧
    busy.capq.head? = some ⟨100#32, 5#3, 0x08#32⟩ ∧ idle.params.Valid ∧ (currentInput idle).rst = false ∧
    fbWrites idle (currentInput idle) 3 = false ∧ idle.capq = [] := by decide
theorem witness_FbIgnoredWritesComplete : busy.params.Valid ∧ (currentInput busy).rst = false ∧ busy.fbAck = false := by decide
theorem witness_FbStrobeReadsComplete : busy.params.Valid ∧ (currentInput busy).rst = false ∧ busy.fbAck = false := by decide
theorem witness_FbScheduleInputWritesComplete : (rbTick (.write 14#5 0#32)).params.Valid ∧ (currentInput (rbTick (.write 14#5 0#32))).rst = false ∧
    (rbTick (.write 14#5 0#32)).fbAck = false ∧ rbWrites (currentInput (rbTick (.write 14#5 0#32))) 15 = false ∧
    rbReads (currentInput (rbTick (.write 14#5 0#32))) 13 = false ∧
    rbWrites (currentInput (rbTick (.write 14#5 0#32))) 13 = false ∧
    (rbTick (.write 13#5 0#32)).params.Valid ∧ (currentInput (rbTick (.write 13#5 0#32))).rst = false ∧
    (rbTick (.write 13#5 0#32)).fbAck = false ∧ rbWrites (currentInput (rbTick (.write 13#5 0#32))) 15 = false ∧
    rbReads (currentInput (rbTick (.write 13#5 0#32))) 14 = false ∧
    rbWrites (currentInput (rbTick (.write 13#5 0#32))) 14 = false := by decide
theorem witness_FbCaptureNextCompletes : (rbTick (.read 9#5)).params.Valid ∧ (currentInput (rbTick (.read 9#5))).rst = false ∧
    (rbTick (.read 9#5)).fbAck = false ∧ rbReads (currentInput (rbTick (.read 9#5))) 10 = false ∧
    rbReads (currentInput (rbTick (.read 9#5))) 11 = false ∧
    rbWrites (currentInput (rbTick (.read 9#5))) 12 = false := by decide
theorem witness_FbScheduleNextCompletes : (rbTick (.write 12#5 0#32)).params.Valid ∧ (currentInput (rbTick (.write 12#5 0#32))).rst = false ∧
    (rbTick (.write 12#5 0#32)).fbAck = false ∧ rbWrites (currentInput (rbTick (.write 12#5 0#32))) 13 = false ∧
    rbWrites (currentInput (rbTick (.write 12#5 0#32))) 14 = false ∧
    rbWrites (currentInput (rbTick (.write 12#5 0#32))) 15 = false := by decide
theorem witness_FbWordReadsComplete : (rbTick (.write 15#5 0#32)).params.Valid ∧ (currentInput (rbTick (.write 15#5 0#32))).rst = false ∧
    (rbTick (.write 15#5 0#32)).fbAck = false ∧ rbWrites (currentInput (rbTick (.write 15#5 0#32))) 0 = false ∧
    rbWrites (currentInput (rbTick (.write 15#5 0#32))) 13 = false ∧
    rbWrites (currentInput (rbTick (.write 15#5 0#32))) 14 = false := by decide
theorem witness_FbReservedCompletes : busy.params.Valid ∧ (currentInput busy).rst = false ∧ busy.fbAck = false ∧ 7 ≤ (7#8).toNat ∧ 7 ≤ (0xFF#8).toNat := by decide
theorem witness_FbCaptureHeadReadsComplete : (rbTick (.write 11#5 0#32)).params.Valid ∧ (currentInput (rbTick (.write 11#5 0#32))).rst = false ∧
    (rbTick (.write 11#5 0#32)).fbAck = false ∧ rbWrites (currentInput (rbTick (.write 11#5 0#32))) 12 = false ∧
    busy.capq.head? = some ⟨100#32, 5#3, 0x08#32⟩ ∧ idle.params.Valid ∧ (currentInput idle).rst = false ∧
    idle.fbAck = false ∧ rbWrites (currentInput idle) 12 = false ∧ idle.capq = [] := by decide
theorem witness_RequestWaitsInAcknowledgeTick : { busy with fbAck := true }.params.Valid ∧ (currentInput { busy with fbAck := true }).rst = false ∧
    { busy with fbAck := true }.fbAck = true ∧ (Instr.fbWrCapNext 0#32).view = .fastBus := by decide
theorem witness_TickWithoutOperation : busy.params.Valid ∧ (currentInput busy).rst = false ∧ (currentInput (fbTick true 3 0#32)).rbOp = .none ∧
    (currentInput (fbTick true 3 0#32)).rst = false ∧
    fbAccepts { both (.write 12#5 0#32) true 3 with fbAck := true }
      (currentInput { both (.write 12#5 0#32) true 3 with fbAck := true }) = false := by decide
theorem witness_CommandedEdgeIsDetected : true ≠ (0x7F#8 : Samples).getLsbD 7 ∧ false ≠ (0x80#8 : Samples).getLsbD 7 := by decide
theorem witness_DetectorsAreIndependent : busy.params.variant = collision.params.variant ∧
    lane (currentInput busy).samp 1 = lane (currentInput collision).samp 1 ∧
    busy.level.getLsbD 1 = collision.level.getLsbD 1 ∧ busy.riseEn.getLsbD 1 = collision.riseEn.getLsbD 1 ∧
    busy.fallEn.getLsbD 0 = collision.fallEn.getLsbD 0 ∧ busy.fallEn.getLsbD 31 = collision.fallEn.getLsbD 31 := by decide
theorem witness_LevelFollowsItsLineAlone : busy.params.Valid ∧ collision.params = busy.params ∧ (currentInput busy).rst = false ∧
    (currentInput collision).rst = false ∧ lane (currentInput busy).samp 1 = lane (currentInput collision).samp 1 ∧
    busy.level.getLsbD 1 = collision.level.getLsbD 1 ∧ (nextOf (step busy)).isSome = true ∧
    (nextOf (step collision)).isSome = true := by decide
theorem witness_OutputEnableGatesThePinAlone : busy.params.Valid ∧ (currentInput busy).rst = false ∧ (nextOf (step busy)).isSome = true ∧ (currentInput busy).rbOp ≠ .read 8#5 := by decide
theorem witness_EdgeGivesOneRecord : collision.params.Valid ∧ (currentInput collision).rst = false ∧ (nextOf (step collision)).isSome = true ∧
    Running collision (currentInput collision) ∧ collision.capq.length < collision.params.capDepth ∧
    2 < collision.params.nch ∧ FirstPhase collision (currentInput collision) 2 2 ∧ Enabled collision 2 ∧
    (∀ b, b < 2 → ¬ (Transition collision (currentInput collision) b ∧ Enabled collision b)) := by decide
theorem witness_EdgeGivesOneRecord_alone : oneEdge.params.Valid ∧ (currentInput oneEdge).rst = false ∧ (nextOf (step oneEdge)).isSome = true ∧
    Running oneEdge (currentInput oneEdge) ∧ oneEdge.capq.length < oneEdge.params.capDepth ∧
    7 < oneEdge.params.nch ∧ FirstPhase oneEdge (currentInput oneEdge) 7 7 ∧ Enabled oneEdge 7 ∧
    (∀ b, b < oneEdge.params.nch → b ≠ 7 → ¬ Transition oneEdge (currentInput oneEdge) b) := by decide
theorem witness_OverflowKeepsOldestRecords : fullQueue.params.Valid ∧ (currentInput fullQueue).rst = false ∧ (nextOf (step fullQueue)).isSome = true ∧
    Running fullQueue (currentInput fullQueue) ∧ Detects fullQueue (currentInput fullQueue) 0 ∧
    fullQueue.capq.length = fullQueue.params.capDepth ∧ fullQueue.prevOf = false := by decide
theorem witness_QueueStepTable : 1 ≤ 1 ∧ ([] : List Nat).length ≤ 1 ∧ 0 < [7].length ∧ [7].length < 2 ∧ [7].length = 1 := by decide
theorem witness_HeldFlushDrainsTheQueue : draining.flushCap = true ∧ draining.arm = false ∧ draining.force = false ∧
    LeftAlone draining.capq.length draining ∧ draining.flushSch = true ∧
    LeftAlone draining.schq.length draining := by decide
theorem witness_WrapPulseMarksTheWrap : atWrap.params.Valid ∧ (currentInput atWrap).rst = false ∧
    (nextOf (step atWrap)).map (fun t => t.out.ev.getLsbD 6) = some true := by decide
theorem witness_FireIsNotGatedByRunning : stoppedFire.params.Valid ∧ (currentInput stoppedFire).rst = false ∧
    (nextOf (step stoppedFire)).isSome = true ∧ ¬ Running stoppedFire (currentInput stoppedFire) ∧
    stoppedFire.schq = ⟨0#32, 2#3, 0x03#32⟩ :: [] ∧ 0#32 = stoppedFire.counter ∧
    (strobesOf stoppedFire (currentInput stoppedFire)).zero = false ∧
    (2#3).toNat < stoppedFire.params.variant.osf := by decide
theorem witness_FireIsNotGatedByRunning_waits : ¬ Running stoppedWait (currentInput stoppedWait) ∧ stoppedWait.params.Valid ∧
    (currentInput stoppedWait).rst = false ∧ (nextOf (step stoppedWait)).isSome = true ∧
    stoppedWait.schq = ⟨1#32, 2#3, 0x03#32⟩ :: [] ∧ 1#32 ≠ stoppedWait.counter ∧ stoppedWait.flushSch = false := by decide
theorem witness_PendingBitsStayUntilCleared : 1 ≤ pending.inputs.length ∧ (∀ inp ∈ pending.inputs.take 1, inp.rst = false) ∧
    (nextOf (Sys2Proof.core.run 1 pending)).isSome = true ∧ pending.pendOf = true ∧ pending.pendUf = true ∧
    pending.pendStarted = true ∧ pending.pendStopped = true ∧
    (∀ inp ∈ pending.inputs.take 1, inp.evClear.getLsbD 2 = false ∧ inp.evClear.getLsbD 3 = false ∧
      inp.evClear.getLsbD 4 = false ∧ inp.evClear.getLsbD 5 = false) := by decide
theorem witness_LinesOnlyRiseBehindTheHost : (currentInput busy).rst = false ∧ (nextOf (step busy)).isSome = true ∧
    (strobesOf busy (currentInput busy)).pop = false ∧ busy.flushCap = false ∧
    (strobesOf busy (currentInput busy)).push = false := by decide
theorem witness_TimestampFieldsComeBack : hi8.Valid ∧ Fits hi8.w 31#32 ∧ (7#3).toNat < hi8.variant.osf ∧
    lo32.Valid ∧ Fits lo32.w 0xFFFFFFFF#32 ∧ (0#3).toNat < lo32.variant.osf := by decide
theorem witness_FreeValuesReachReadDataAlone : busy.inputs ≠ [] ∧ (nextOf (step busy)).isSome = true ∧ busy.capq ≠ [] ∧ (currentInput busy).rst = false := by decide
theorem witness_ScheduleRoundTrip : scheduled.params.Valid ∧ QueuesFit scheduled ∧ ScheduleAhead scheduled ∧ scheduled.force = true ∧
    scheduled.flushSch = false ∧ scheduled.counter.toNat + 2 < 2 ^ scheduled.params.w ∧
    LeftAlone (2 + 1) scheduled := by decide

end Sys2Proof.Tests
end

