-- ==== Sys2Proof/Proofs/EdgeDetector.lean ====
section
/-! The Edge Detector (spec/41_edge_detector.md). -/

namespace Sys2Proof.Proofs

open Sys2Proof.Machine Sys2Proof.Config

/-- The high-resolution sampler hands over the whole lane (R140). -/
theorem sampleVector_of_high {p : Params} (hv : p.variant = .high) (inp : TickInput) (c : Nat) :
    sampleVector p inp c = lane inp.samp c := by
  rw [sampleVector, hv]

/-- The low-resolution sampler hands over sample 0 of the lane (R143). -/
theorem sampleVector_of_low {p : Params} (hv : p.variant = .low) (inp : TickInput) (c : Nat) :
    sampleVector p inp c = lane inp.samp c &&& 1#8 := by
  rw [sampleVector, hv]

/-- Of the construction and the input, a sample vector depends on the variant and on its own lane. -/
theorem sampleVector_congr {p p' : Params} {inp inp' : TickInput} {c : Nat}
    (hv : p.variant = p'.variant) (hsamp : lane inp.samp c = lane inp'.samp c) :
    sampleVector p inp c = sampleVector p' inp' c := by
  cases h : p'.variant with
  | high => rw [sampleVector_of_high (hv.trans h), sampleVector_of_high h, hsamp]
  | low => rw [sampleVector_of_low (hv.trans h), sampleVector_of_low h, hsamp]

/-- Settles O47: of state and input, the four arguments of `edgeDetect` name the variant and channel `c` only,
the sample vector included (R155, R167). -/
theorem detectorsAreIndependent : Obligations.DetectorsAreIndependent := by
  intro s s' inp inp' c hvariant hsamp hlevel hrise hfall
  have hvec : sampleVector s.params inp c = sampleVector s'.params inp' c :=
    sampleVector_congr hvariant hsamp
  rw [channelEdge, channelEdge, hvariant, hvec, hlevel, hrise, hfall]

/-- Channel 2 low with its rising edges enabled, every other channel low and disabled. -/
def onlyChannelTwo : State := { State.reset with riseEn := 0x04#32 }

/-- Channel 2 as in `onlyChannelTwo`, every other channel high with both directions enabled. -/
def channelTwoAmongOthers : State :=
  { State.reset with level := 0xFFFFFFFB#32, riseEn := 0xFFFFFFFF#32, fallEn := 0xFFFFFFFB#32 }

/-- Channel 2 rises at phase 2; every other line has the samples `others`. -/
def risesOnChannelTwo (others : Samples) : TickInput :=
  { quietInput 0#32 with samp := Vector.ofFn fun d : Fin 32 => if d.val = 2 then 0xFC#8 else others }

/-- All hypotheses of O47 hold together at channel 2 of two blocks whose other channels differ in level, enables
and samples: the same edge is detected there, where channel 5 detects one in the second block alone. -/
theorem detectorsAreIndependent_witness :
    channelEdge onlyChannelTwo (risesOnChannelTwo 0x00#8) 2 =
      channelEdge channelTwoAmongOthers (risesOnChannelTwo 0x07#8) 2 ∧
    channelEdge onlyChannelTwo (risesOnChannelTwo 0x00#8) 2 = ⟨true, 2#3, true⟩ ∧
    channelEdge onlyChannelTwo (risesOnChannelTwo 0x00#8) 5 = ⟨false, 0#3, false⟩ ∧
    channelEdge channelTwoAmongOthers (risesOnChannelTwo 0x07#8) 5 = ⟨true, 3#3, false⟩ :=
  ⟨detectorsAreIndependent _ _ _ _ 2 (by decide) (by decide) (by decide) (by decide) (by decide),
    by decide, by decide, by decide⟩

end Sys2Proof.Proofs
end

