-- ==== Sys2Proof/Proofs/TieBreakCapture.lean ====
section
/-! The Tie-Break Selector and the capture of a record (spec/43_tiebreak_capture.md). -/

namespace Sys2Proof.Proofs

open Sys2Proof.Machine Sys2Proof.Config Sys2Proof.Safety Sys2Proof.Laws

/-! ## The rules of a step -/

/-- The strobes the transition sees are those the inputs ask for (R331 part 1). -/
theorem portEffect_strobes (s : State) :
    (⟨(portEffect (regBankPort s)).zero || (portEffect (accepted s (fastBusPort s))).zero,
      (portEffect (regBankPort s)).capNext || (portEffect (accepted s (fastBusPort s))).capNext,
      (portEffect (regBankPort s)).schedNext || (portEffect (accepted s (fastBusPort s))).schedNext⟩ :
        Strobes) = strobesOf s (currentInput s) := by
  obtain ⟨rbZero, rbCap, rbSched, -⟩ := regBankPort_effect s
  obtain ⟨fbZero, fbCap, fbSched, -⟩ := fastBusPort_effect s
  rw [rbZero, rbCap, rbSched, fbZero, fbCap, fbSched, Bool.or_false]
  rfl

/-- A step without reset keeps the rules of a tick under the strobes the inputs ask for (R331, R332). -/
theorem step_tickRules {s t : State} (hv : s.params.Valid) (hrst : (currentInput s).rst = false)
    (hstep : step s = .next t) : TickRules s (strobesOf s (currentInput s)) t := by
  rw [step_eq] at hstep
  rcases next_cases hstep with ⟨hreset, -⟩ | ⟨-, rfl⟩
  · rw [hrst] at hreset; cases hreset
  · rw [← portEffect_strobes s]
    exact engineTick_tickRules s hv _ _ _

/-! ## Levels, first phase and winner -/

section Rules

variable {s t : State} {inp : TickInput} {x : Strobes} {c k : Nat}

/-- The remembered level of a channel flips in its transition (R158, R160). -/
theorem level_flips_of_transition (h : EngineRules s inp x t) (hc : c < s.params.nch)
    (htr : Transition s inp c) : t.level.getLsbD c = !s.level.getLsbD c :=
  Bool.eq_not_of_ne ((h.level c hc).mpr htr)

/-- A channel without a transition keeps its remembered level (R158, R160). -/
theorem level_stays_of_no_transition (h : EngineRules s inp x t) (hc : c < s.params.nch)
    (htr : ¬ Transition s inp c) : t.level.getLsbD c = s.level.getLsbD c :=
  not_ne_iff.mp (mt (h.level c hc).mp htr)

/-- A channel has at most one earliest differing phase (R164). -/
theorem firstPhase_unique {k' : Nat} (h : FirstPhase s inp c k) (h' : FirstPhase s inp c k') :
    k = k' := by
  obtain ⟨hdiff, hfirst⟩ := h
  obtain ⟨hdiff', hfirst'⟩ := h'
  exact Nat.le_antisymm (Nat.le_of_not_lt fun hlt => hfirst k' hlt hdiff')
    (Nat.le_of_not_lt fun hlt => hfirst' k hlt hdiff)

/-- The lowest channel with an enabled transition wins the tie-break (R191). -/
theorem wins_of_lowest (hc : c < s.params.nch) (htr : Transition s inp c) (hen : Enabled s c)
    (hlow : ∀ b, b < c → ¬ (Transition s inp b ∧ Enabled s b)) : Wins s inp c :=
  ⟨⟨hc, htr, hen⟩, fun b hb ⟨_, hdet⟩ => hlow b hb hdet⟩

/-- A queue with room gains exactly the record of the winner: the count, its first differing phase, the new
levels (R192, R193). -/
theorem capq_of_wins (h : EngineRules s inp x t) (hrun : Running s inp)
    (hroom : s.capq.length < s.params.capDepth) (hwin : Wins s inp c) (hk : FirstPhase s inp c k) :
    t.capq = poppedCapq s x.pop ++ [⟨s.counter, BitVec.ofNat 3 k, t.level⟩] := by
  obtain ⟨k', hk', hcapq⟩ := h.captured c hrun hwin hroom
  rw [firstPhase_unique hk hk']
  exact hcapq

end Rules

/-! ## R197 -/

/-- Settles O50: in both clauses channel `c` wins the tie-break, in (a) because no other channel makes a
transition at all; the engine's rules of the tick then give the record and the levels. -/
theorem edgeGivesOneRecord : Obligations.EdgeGivesOneRecord := by
  intro s t c k hv hrst hstep hrun hroom hc hk hen
  have hrules := (step_tickRules hv hrst hstep).engine
  have htr : Transition s (currentInput s) c := ⟨k, hk.1⟩
  have hrecord := fun hlow => capq_of_wins hrules hrun hroom (wins_of_lowest hc htr hen hlow) hk
  constructor
  · intro halone
    refine ⟨hrecord ?_, level_flips_of_transition hrules hc htr, ?_⟩
    · exact fun b hb ⟨htrb, _⟩ => halone b (hb.trans hc) hb.ne htrb
    · exact fun b hb hne => level_stays_of_no_transition hrules hb (halone b hb hne)
  · intro hlow
    exact ⟨hrecord hlow, fun b hb => level_flips_of_transition hrules hb⟩

/-! ## Both clauses at work -/

/-- A forced block at count 100 with rising edges of channels 2 and 5 enabled and one record in the queue,
which the register-bank view pops in this tick. Channel 2 rises at phase 2; channel 5 has the samples `five`. -/
def risesBesideFive (five : Samples) : State :=
  { State.reset with
    force := true, counter := 100#32, riseEn := 0x24#32, capq := [⟨7#32, 1#3, 0x00#32⟩]
    inputs := [{ quietInput 0#32 with
      rbOp := .write 12#5 0#32
      samp := Vector.ofFn fun d : Fin 32 =>
        if d.val = 2 then 0xFC#8 else if d.val = 5 then five else 0x00#8 }] }

/-- Clause (a) of O50 at channel 2, the line of channel 5 being steady: the old record leaves, the new one
enters, and only channel 2 has flipped. -/
theorem edgeGivesOneRecord_witness_alone :
    ∃ t, step (risesBesideFive 0x00#8) = .next t ∧ t.capq = [⟨100#32, 2#3, t.level⟩] ∧
      t.level.getLsbD 2 = true ∧ t.level.getLsbD 5 = false := by
  refine ⟨_, rfl, ?_⟩
  obtain ⟨hcapq, hflip, hstay⟩ := (edgeGivesOneRecord (risesBesideFive 0x00#8) _ 2 2 (by decide)
    (by decide) rfl (by decide) (by decide) (by decide) (by decide) (by decide)).1 (by decide)
  exact ⟨hcapq, hflip, hstay 5 (by decide) (by decide)⟩

/-- Clause (b) of O50: channel 5 rises too, at the earlier phase 1. The only record is channel 2's, with
channel 2's phase, and shows the transition of channel 5 as well. -/
theorem edgeGivesOneRecord_witness_collision :
    ∃ t, step (risesBesideFive 0xFE#8) = .next t ∧ t.capq = [⟨100#32, 2#3, t.level⟩] ∧
      t.level.getLsbD 2 = true ∧ t.level.getLsbD 5 = true := by
  refine ⟨_, rfl, ?_⟩
  obtain ⟨hcapq, hflips⟩ := (edgeGivesOneRecord (risesBesideFive 0xFE#8) _ 2 2 (by decide)
    (by decide) rfl (by decide) (by decide) (by decide) (by decide) (by decide)).2 (by decide)
  exact ⟨hcapq, hflips 2 (by decide) ⟨2, by decide⟩, hflips 5 (by decide) ⟨1, by decide⟩⟩

end Sys2Proof.Proofs
end

