-- ==== Sys2Proof/Proofs/ScheduleFire.lean ====
section
/-! Schedule and fire (spec/46_schedule_fire.md). -/

namespace Sys2Proof.Proofs

open Sys2Proof.Machine Sys2Proof.Config Sys2Proof.Safety

/-! ## The head of the Schedule Queue -/

section Head

variable {s : State} {r : ScheduleRecord} {rest : List ScheduleRecord} {c k : Nat}

/-- A queue fires exactly where its head names the count (R241). -/
theorem fires_cons_iff (hq : s.schq = r :: rest) : Fires s ↔ r.cycle = s.counter := by
  simp [Fires, hq]

/-- A due head gives the line its level from its own phase on (R177, R178, R179). -/
theorem outLevel_of_due (hq : s.schq = r :: rest) (hdue : r.cycle = s.counter)
    (hsub : r.sub.toNat < s.params.variant.osf) :
    outLevel s c k = if r.sub.toNat ≤ k then r.levels.getLsbD c else steadyLevel s c := by
  simp [outLevel, hq, hdue, Nat.mod_eq_of_lt hsub]

/-- A head of another count leaves the line at its steady level (R177, R178). -/
theorem outLevel_of_not_due (hq : s.schq = r :: rest) (hdue : r.cycle ≠ s.counter) :
    outLevel s c k = steadyLevel s c := by
  simp [outLevel, hq, hdue]

end Head

/-! ## The rules of a tick -/

section Rules

variable {s t : State} {inp : TickInput} {x : Strobes} {r : ScheduleRecord}
  {rest : List ScheduleRecord}

/-- Only the zero strobe moves the counter of a block that does not run (R227). -/
theorem counter_stays_while_stopped (h : EngineRules s inp x t) (hstop : ¬ Running s inp)
    (hzero : x.zero = false) : t.counter = s.counter := by
  apply BitVec.eq_of_toNat_eq
  rw [h.counter, hzero, if_neg Bool.false_ne_true, if_neg hstop]

/-- Behind the records that stay, at most one record enters the Schedule Queue (R210). -/
theorem schq_gains_at_most_one (h : EngineRules s inp x t) :
    ∃ pushed, t.schq = (if Fires s ∨ s.flushSch = true then s.schq.tail else s.schq) ++ pushed ∧
      pushed.length ≤ 1 := by
  by_cases hpush : x.push = true ∧ s.schq.length < s.params.schDepth
  · obtain ⟨hstrobe, hroom⟩ := hpush
    obtain ⟨r, -, hschq⟩ := h.pushed hstrobe hroom
    exact ⟨[r], hschq, Nat.le_refl 1⟩
  · have hnone : x.push = false ∨ s.params.schDepth ≤ s.schq.length := by
      rwa [not_and_or, Bool.not_eq_true, Nat.not_lt] at hpush
    exact ⟨[], by rw [h.notPushed hnone, List.append_nil], Nat.zero_le 1⟩

/-- A due head leaves the queue (R242). -/
theorem schq_of_due (h : EngineRules s inp x t) (hq : s.schq = r :: rest)
    (hdue : r.cycle = s.counter) : ∃ pushed, t.schq = rest ++ pushed ∧ pushed.length ≤ 1 := by
  have hgain := schq_gains_at_most_one h
  rwa [if_pos (.inl ((fires_cons_iff hq).mpr hdue)), hq, List.tail_cons] at hgain

/-- A head of another count stays, but for a flush (R242, R244). -/
theorem schq_of_not_due (h : EngineRules s inp x t) (hq : s.schq = r :: rest)
    (hdue : r.cycle ≠ s.counter) (hflush : s.flushSch = false) :
    ∃ pushed, t.schq = r :: rest ++ pushed ∧ pushed.length ≤ 1 := by
  have hstays : ¬ (Fires s ∨ s.flushSch = true) := by
    rw [fires_cons_iff hq, hflush]
    simpa using hdue
  have hgain := schq_gains_at_most_one h
  rwa [if_neg hstays, hq] at hgain

/-- The vectors driven in a tick have the levels the head commands (R243, R332). -/
theorem outVec_getLsbD (h : TickRules s x t) {c k : Nat} (hc : c < s.params.nch)
    (hk : k < s.params.variant.osf) : (lane t.out.outVec c).getLsbD k = outLevel s c k := by
  rw [h.outputs.outVec]
  exact h.engine.outvec c k hc hk

end Rules

/-! ## R249 -/

/-- Settles O55: of the rules of a tick, the counter's alone asks whether the block runs; those of the
Schedule Queue and of the output vectors ask only whether the head is due. -/
theorem fireIsNotGatedByRunning : Obligations.FireIsNotGatedByRunning := by
  intro s t r rest hv hrst hstep hstop hq
  have hrules := step_tickRules hv hrst hstep
  refine ⟨counter_stays_while_stopped hrules.engine hstop, ?_, ?_⟩
  · intro hdue hsub
    refine ⟨schq_of_due hrules.engine hq hdue, fun c k hc hk => ?_⟩
    rw [outVec_getLsbD hrules hc hk, outLevel_of_due hq hdue hsub]
  · intro hdue hflush
    refine ⟨schq_of_not_due hrules.engine hq hdue hflush, fun c k hc hk => ?_⟩
    rw [outVec_getLsbD hrules hc hk, outLevel_of_not_due hq hdue]

/-! ## Both cases at work -/

/-- An armed block without a trigger, stopped at count 5, with line 1 high. Its first record raises line 0 and
lowers line 1 at phase 2 of count `cycle`; in this tick the register-bank view pushes a third record. -/
def stoppedAtFive (cycle : Word) : State :=
  { State.reset with
    arm := true, counter := 5#32, schedTime := 72#32
    outvec := Vector.ofFn fun d : Fin 32 => if d.val = 1 then 0xFF#8 else 0x00#8
    schq := [⟨cycle, 2#3, 0x01#32⟩, ⟨8#32, 0#3, 0x00#32⟩]
    inputs := [{ quietInput 0#32 with rbOp := .write 15#5 0#32 }] }

/-- A first record for the stopped count fires: it leaves the queue, and both lines switch at phase 2. -/
theorem fireIsNotGatedByRunning_witness_fires :
    ∃ t, step (stoppedAtFive 5#32) = .next t ∧ t.counter = 5#32 ∧
      t.schq.head? = some ⟨8#32, 0#3, 0x00#32⟩ ∧
      (lane t.out.outVec 0).getLsbD 1 = false ∧ (lane t.out.outVec 0).getLsbD 2 = true ∧
      (lane t.out.outVec 1).getLsbD 1 = true ∧ (lane t.out.outVec 1).getLsbD 2 = false := by
  refine ⟨_, rfl, ?_⟩
  obtain ⟨hcounter, hfires, -⟩ := fireIsNotGatedByRunning (stoppedAtFive 5#32) _ _ _ (by decide)
    (by decide) rfl (by decide) rfl
  obtain ⟨⟨pushed, hschq, -⟩, hlines⟩ := hfires rfl (by decide)
  exact ⟨hcounter (by decide), by rw [hschq]; rfl, hlines 0 1 (by decide) (by decide),
    hlines 0 2 (by decide) (by decide), hlines 1 1 (by decide) (by decide),
    hlines 1 2 (by decide) (by decide)⟩

/-- A first record for count 6 waits at the stopped count 5: it stays the head, and both lines are steady. -/
theorem fireIsNotGatedByRunning_witness_waits :
    ∃ t, step (stoppedAtFive 6#32) = .next t ∧ t.counter = 5#32 ∧
      t.schq.head? = some ⟨6#32, 2#3, 0x01#32⟩ ∧
      (lane t.out.outVec 0).getLsbD 2 = false ∧ (lane t.out.outVec 1).getLsbD 2 = true := by
  refine ⟨_, rfl, ?_⟩
  obtain ⟨hcounter, -, hwaits⟩ := fireIsNotGatedByRunning (stoppedAtFive 6#32) _ _ _ (by decide)
    (by decide) rfl (by decide) rfl
  obtain ⟨⟨pushed, hschq, -⟩, hlines⟩ := hwaits (by decide) rfl
  exact ⟨hcounter (by decide), by rw [hschq]; rfl, hlines 0 2 (by decide) (by decide),
    hlines 1 2 (by decide) (by decide)⟩

end Sys2Proof.Proofs
end

/-! The register-bank view (spec/47_host_regbank.md): its operations complete, and the ticks in which a view
performs none. -/

namespace Sys2Proof.Proofs

open Sys2Proof.Machine Sys2Proof.Config Sys2Proof.Safety Sys2Proof.Laws

/-! ## Races with the fast bus -/

/-- The accepted fast-bus request reads the shared resource (R405). -/
def fastBusReads (s : State) : Resource → Bool
  | .counter => fbReads s (currentInput s) 0
  | .capq => fbReads s (currentInput s) 1 || fbReads s (currentInput s) 2
  | .schedTime => fbReads s (currentInput s) 4 || fbWrites s (currentInput s) 6
  | .schedData => fbReads s (currentInput s) 5 || fbWrites s (currentInput s) 6
  | .schq => false

/-- The accepted fast-bus request writes the shared resource (R405). -/
def fastBusWrites (s : State) : Resource → Bool
  | .counter => false
  | .capq => fbWrites s (currentInput s) 3
  | .schedTime => fbWrites s (currentInput s) 4
  | .schedData => fbWrites s (currentInput s) 5
  | .schq => fbWrites s (currentInput s) 6

/-- The accepted fast-bus request does not race with the register-bank operation `i` (R405). -/
structure RaceFree (s : State) (i : Instr) : Prop where
  ofWrites : ∀ r ∈ resourceWrites i, fastBusReads s r = false ∧ fastBusWrites s r = false
  ofReads : ∀ r ∈ resourceReads i, fastBusWrites s r = false

/-- Two lists that share no resource do not meet. -/
theorem meets_eq_false {a b : List Resource} (h : ∀ r ∈ a, r ∉ b) : meets a b = false := by
  simpa [meets] using h

section Races

variable {s : State} {b : Presented}

theorem fastBusReads_of_mem (h : accepted s (fastBusPort s) = some b) {r : Resource}
    (hr : r ∈ resourceReads b.instr) : fastBusReads s r = true := by
  rw [(fastBusPort_resources s b h).1] at hr
  split_ifs at hr with h0 h12 h4 h5 h6
  · simp_all [fastBusReads]
  · simp_all [fastBusReads]
  · simp_all [fastBusReads]
  · simp_all [fastBusReads]
  · rcases List.mem_pair.mp hr with rfl | rfl <;> simp [fastBusReads, h6]
  · cases hr

theorem fastBusWrites_of_mem (h : accepted s (fastBusPort s) = some b) {r : Resource}
    (hr : r ∈ resourceWrites b.instr) : fastBusWrites s r = true := by
  rw [(fastBusPort_resources s b h).2] at hr
  split_ifs at hr
  · simp_all [fastBusWrites]
  · simp_all [fastBusWrites]
  · simp_all [fastBusWrites]
  · simp_all [fastBusWrites]
  · cases hr

/-- Without a race the operations of the two views do not collide (R405). -/
theorem RaceFree.not_collide {i : Instr} (hfree : RaceFree s i)
    (h : accepted s (fastBusPort s) = some b) : collide i b.instr = false := by
  have hwrites : meets (resourceWrites i) (resourceReads b.instr ++ resourceWrites b.instr) = false := by
    refine meets_eq_false fun r hr hmem => ?_
    obtain ⟨hread, hwrite⟩ := hfree.ofWrites r hr
    rcases List.mem_append.mp hmem with hb | hb
    · exact Bool.false_ne_true (hread.symm.trans (fastBusReads_of_mem h hb))
    · exact Bool.false_ne_true (hwrite.symm.trans (fastBusWrites_of_mem h hb))
  have hreads : meets (resourceWrites b.instr) (resourceReads i ++ resourceWrites i) = false := by
    refine meets_eq_false fun r hb hmem => ?_
    have hwrite : fastBusWrites s r = false :=
      (List.mem_append.mp hmem).elim (hfree.ofReads r) fun hr => (hfree.ofWrites r hr).2
    exact Bool.false_ne_true (hwrite.symm.trans (fastBusWrites_of_mem h hb))
  rw [collide, hwrites, hreads]
  rfl

/-- An operation of registers that are the view's own races with nothing. -/
theorem RaceFree.of_own {i : Instr} (hw : resourceWrites i = []) (hr : resourceReads i = []) :
    RaceFree s i :=
  ⟨by simp [hw], by simp [hr]⟩

end Races

/-! ## Stores of the two views -/

/-- Only an operation that writes the resource stores `SCHED_TIME`. -/
theorem hostEffect_schedTime_eq_none {i : Instr} (h : .schedTime ∉ resourceWrites i) (s : State) :
    (hostEffect i s).schedTime = none := by
  cases i with
  | rbWrSchedTime _ => exact absurd (List.mem_singleton_self _) h
  | fbWrSchedTime _ => exact absurd (List.mem_singleton_self _) h
  | _ => rfl

/-- Only an operation that writes the resource stores `SCHED_DATA`. -/
theorem hostEffect_schedData_eq_none {i : Instr} (h : .schedData ∉ resourceWrites i) (s : State) :
    (hostEffect i s).schedData = none := by
  cases i with
  | rbWrSchedData _ => exact absurd (List.mem_singleton_self _) h
  | fbWrSchedData _ => exact absurd (List.mem_singleton_self _) h
  | _ => rfl

/-- Where no schedule-input register is stored by both views, the order of their stores does not matter
(R81). -/
theorem putRegs_fbStores {s : State} {inp : TickInput} {e : HostEffect}
    (htime : e.schedTime = none ∨ fbWrites s inp 4 = false)
    (hdata : e.schedData = none ∨ fbWrites s inp 5 = false) (h : HostRegs) :
    putRegs e (fbStores s inp h) = fbStores s inp (putRegs e h) := by
  unfold fbStores
  split_ifs with h4 h5
  · have hnone : e.schedTime = none := htime.resolve_right (by simp [h4])
    simp [putRegs, hnone]
  · have hnone : e.schedData = none := hdata.resolve_right (by simp [h5])
    simp [putRegs, hnone]
  · rfl

/-! ## A tick by the contribution of one view -/

section Ticks

variable {s : State}

/-- The transition of a register-bank contribution `e` beside the fast-bus request at the inputs (R331). -/
theorem engineTick_rbTick (hv : s.params.Valid) {e : HostEffect}
    (htime : e.schedTime = none ∨ fbWrites s (currentInput s) 4 = false)
    (hdata : e.schedData = none ∨ fbWrites s (currentInput s) 5 = false) :
    RbTick s ⟨e.zero, e.capNext, e.schedNext⟩ (putRegs e (hostRegs s)) e.rdata
      (engineTick s e (portEffect (accepted s (fastBusPort s)))
        (accepted s (fastBusPort s)).isSome) := by
  obtain ⟨hzero, hpop, hpush, hput, hack, hread, hnone⟩ := fastBusPort_effect s
  have hrules := engineTick_tickRules s hv e (portEffect (accepted s (fastBusPort s)))
    (accepted s (fastBusPort s)).isSome
  rw [hzero, hpop, hpush, Bool.or_false] at hrules
  refine ⟨hrules, ?_, rfl, hack, hread, hnone⟩
  rw [hostRegs_engineTick, putRegs_both, hput, putRegs_fbStores htime hdata]

/-- A register-bank operation that no fast-bus request races with completes: its strobes, stored values and
read value are those of its own contribution (R255, R331). -/
theorem exec_rbTick (hv : s.params.Valid) (hrst : (currentInput s).rst = false) {i : Instr}
    (hview : i.view = .regBank) (hfree : RaceFree s i) :
    ∃ t, exec i s = .next t ∧
      RbTick s ⟨(hostEffect i s).zero, (hostEffect i s).capNext, (hostEffect i s).schedNext⟩
        (putRegs (hostEffect i s) (hostRegs s)) (hostEffect i s).rdata t := by
  refine ⟨_, (exec_regBank hview s).trans (runTick_next hrst ?_), engineTick_rbTick hv ?_ ?_⟩
  · rintro a b ⟨⟩ hb
    exact hfree.not_collide hb
  · by_cases hmem : Resource.schedTime ∈ resourceWrites i
    · exact .inr (hfree.ofWrites _ hmem).2
    · exact .inl (hostEffect_schedTime_eq_none hmem s)
  · by_cases hmem : Resource.schedData ∈ resourceWrites i
    · exact .inr (hfree.ofWrites _ hmem).2
    · exact .inl (hostEffect_schedData_eq_none hmem s)

/-- A step without a register-bank operation (R290). -/
theorem step_rbTick_of_no_rbOp (hv : s.params.Valid) (hrst : (currentInput s).rst = false)
    (hop : (currentInput s).rbOp = .none) :
    ∃ t, step s = .next t ∧ RbTick s noStrobe (hostRegs s) none t := by
  have hport : regBankPort s = none := by simp [regBankPort, rbInstrOf, hop]
  refine ⟨_, ?_, engineTick_rbTick (e := noEffect) hv (.inl rfl) (.inl rfl)⟩
  rw [step_eq, hport]
  exact runTick_next hrst (by simp)

/-- A tick in which no fast-bus request is accepted, the register-bank view doing what the inputs say
(R302, R318). -/
theorem runTick_of_not_accepted (hv : s.params.Valid) (hrst : (currentInput s).rst = false)
    {fb : Option Presented} (hfb : accepted s fb = none) :
    ∃ t, runTick (regBankPort s) fb s = .next t ∧
      TickRules s ⟨rbWrites (currentInput s) 0, rbWrites (currentInput s) 12,
        rbWrites (currentInput s) 15⟩ t ∧
      hostRegs t = rbStores s.params (currentInput s) (hostRegs s) ∧
      t.fbAck = false ∧ t.fbRdata = 0#32 ∧ RegBankRules s (currentInput s) t := by
  have hnext := runTick_next (rb := regBankPort s) (fb := fb) hrst (by simp [hfb])
  rw [hfb] at hnext
  obtain ⟨hzero, hpop, hpush, hput, hread, hnone⟩ := regBankPort_effect s
  have hrules := engineTick_tickRules s hv (portEffect (regBankPort s)) noEffect false
  rw [hzero, hpop, hpush] at hrules
  simp only [noEffect, Bool.or_false] at hrules
  refine ⟨_, hnext, hrules, ?_, rfl, rfl, hread, hnone⟩
  rw [hostRegs_engineTick, putRegs_both]
  exact hput _

end Ticks

/-! ## Control, enable and status registers -/

/-- Settles O20: the four registers are the view's own, so nothing races with their writes. -/
theorem controlBitWritesComplete : Obligations.ControlBitWritesComplete := by
  intro s d hv hrst
  refine ⟨⟨rfl, ?_⟩, ⟨rfl, ?_⟩, ⟨rfl, ?_⟩, rfl, ?_⟩ <;>
    exact exec_rbTick hv hrst rfl (.of_own rfl rfl)

/-- Settles O21: the three bitmaps are the view's own, so nothing races with their writes. -/
theorem enableWritesComplete : Obligations.EnableWritesComplete := by
  intro s d hv hrst
  refine ⟨⟨rfl, ?_⟩, ⟨rfl, ?_⟩, rfl, ?_⟩ <;>
    exact exec_rbTick hv hrst rfl (.of_own rfl rfl)

/-- Settles O26: the four writes touch no shared resource and contribute nothing. -/
theorem rbIgnoredWritesComplete : Obligations.RbIgnoredWritesComplete := by
  intro s d hv hrst
  refine ⟨⟨rfl, ?_⟩, ⟨rfl, ?_⟩, ⟨rfl, ?_⟩, rfl, ?_⟩ <;>
    exact exec_rbTick hv hrst rfl (.of_own rfl rfl)

/-- Settles O30: the levels are the view's own, and no fast-bus request writes the counter. -/
theorem rbWordReadsComplete : Obligations.RbWordReadsComplete := by
  intro s hv hrst
  have hfree : RaceFree s .rbRdCounter :=
    ⟨by simp [resourceWrites], by simp [resourceReads, fastBusWrites]⟩
  exact ⟨⟨rfl, exec_rbTick hv hrst rfl (.of_own rfl rfl)⟩, rfl, exec_rbTick hv hrst rfl hfree⟩

/-! ## Counter -/

section ZeroStrobe

variable {s t : State} {inp : TickInput} {x : Strobes}

/-- The zero strobe sets the counter to 0, running or not (R227, R229). -/
theorem counter_of_zero_strobe (h : EngineRules s inp x t) (hzero : x.zero = true) :
    t.counter = 0#32 := by
  apply BitVec.eq_of_toNat_eq
  rw [h.counter, hzero]
  rfl

/-- The zero strobe suppresses the wrap line of its tick (R228, R257). -/
theorem no_wrap_of_zero_strobe (h : OutputRules s inp x t) (hzero : x.zero = true) :
    t.out.ev.getLsbD 6 = false := by
  rw [Bool.eq_false_iff, ne_eq, h.counterWrap, hzero]
  simp

end ZeroStrobe

/-- Settles O23: only a fast-bus read of the counter races with the strobe; the counter and the wrap line
follow from the rules of the tick. -/
theorem counterZeroCompletes : Obligations.CounterZeroCompletes := by
  intro s d hv hrst
  refine ⟨rfl, fun hcounter => ?_⟩
  have hfree : RaceFree s (.rbWrCounterZero d) :=
    ⟨by simp [resourceWrites, fastBusReads, fastBusWrites, hcounter], by simp [resourceReads]⟩
  obtain ⟨t, hexec, htick⟩ := exec_rbTick hv hrst rfl hfree
  exact ⟨t, hexec, counter_of_zero_strobe htick.rules.engine rfl,
    no_wrap_of_zero_strobe htick.rules.outputs rfl, htick⟩

/-! ## Capture head -/

/-- Settles O24: only a fast-bus read or pop of the Capture Queue races with the pop. -/
theorem rbCaptureNextCompletes : Obligations.RbCaptureNextCompletes := by
  intro s d hv hrst
  refine ⟨rfl, fun htime hdata hpop => exec_rbTick hv hrst rfl ⟨?_, by simp [resourceReads]⟩⟩
  simp [resourceWrites, fastBusReads, fastBusWrites, htime, hdata, hpop]

section CaptureHead

variable {s : State}

/-- `CAP_TIME` of a queue with a head is the head's timestamp word (R277). -/
theorem captureTimeValue_of_head {r : CaptureRecord} (h : r ∈ s.capq.head?) (any : Word) :
    captureTimeValue s any = timestampWord s.params r.cycle r.sub := by
  obtain ⟨rest, hq⟩ := List.head?_eq_some_iff.mp h
  rw [captureTimeValue, hq]

/-- `CAP_TIME` of an empty queue has the register's width (R211, R277). -/
theorem captureTimeValue_lt_of_empty (h : s.capq = []) (any : Word) :
    (captureTimeValue s any).toNat < 2 ^ s.params.tw := by
  rw [captureTimeValue, h, ← fits_iff]
  exact fits_truncTo _ _

/-- `CAP_DATA` of a queue with a head is the head's bitmap (R279). -/
theorem captureDataValue_of_head {r : CaptureRecord} (h : r ∈ s.capq.head?) (any : Word) :
    captureDataValue s any = r.levels := by
  obtain ⟨rest, hq⟩ := List.head?_eq_some_iff.mp h
  rw [captureDataValue, hq]

/-- `CAP_DATA` of an empty queue has the register's width (R211, R279). -/
theorem captureDataValue_lt_of_empty (h : s.capq = []) (any : Word) :
    (captureDataValue s any).toNat < 2 ^ s.params.nch := by
  rw [captureDataValue, h, ← fits_iff]
  exact fits_truncTo _ _

end CaptureHead

/-- Settles O32: only a fast-bus pop races with the reads, and the value read is that of the head of `S_t`. -/
theorem rbCaptureHeadReadsComplete : Obligations.RbCaptureHeadReadsComplete := by
  intro s hv hrst hpop
  have htime : RaceFree s .rbRdCapTime :=
    ⟨by simp [resourceWrites], by simp [resourceReads, fastBusWrites, hpop]⟩
  have hdata : RaceFree s .rbRdCapData :=
    ⟨by simp [resourceWrites], by simp [resourceReads, fastBusWrites, hpop]⟩
  constructor
  · obtain ⟨t, hexec, htick⟩ := exec_rbTick hv hrst rfl htime
    exact ⟨rfl, t, _, hexec, htick, fun r hr => captureTimeValue_of_head hr _,
      fun hq => captureTimeValue_lt_of_empty hq _⟩
  · obtain ⟨t, hexec, htick⟩ := exec_rbTick hv hrst rfl hdata
    exact ⟨rfl, t, _, hexec, htick, fun r hr => captureDataValue_of_head hr _,
      fun hq => captureDataValue_lt_of_empty hq _⟩

/-! ## Schedule input -/

/-- Settles O22: only a fast-bus push, and a fast-bus access to the same register, race with a write. -/
theorem rbScheduleInputWritesComplete : Obligations.RbScheduleInputWritesComplete := by
  intro s d hv hrst hpush
  refine ⟨⟨rfl, fun hread hwrite => exec_rbTick hv hrst rfl ⟨?_, by simp [resourceReads]⟩⟩,
    rfl, fun hread hwrite => exec_rbTick hv hrst rfl ⟨?_, by simp [resourceReads]⟩⟩
  · simp [resourceWrites, fastBusReads, fastBusWrites, hpush, hread, hwrite]
  · simp [resourceWrites, fastBusReads, fastBusWrites, hpush, hread, hwrite]

/-- Settles O25: only a fast-bus write of an input register and a fast-bus push race with the push. -/
theorem rbScheduleNextCompletes : Obligations.RbScheduleNextCompletes := by
  intro s d hv hrst
  refine ⟨rfl, fun htime hdata hpush => exec_rbTick hv hrst rfl ⟨?_, ?_⟩⟩
  · simp [resourceWrites, fastBusReads, fastBusWrites, hpush]
  · simp [resourceReads, fastBusWrites, htime, hdata]

/-- Settles O31: only a fast-bus write of the same register races with a read. -/
theorem rbScheduleInputReadsComplete : Obligations.RbScheduleInputReadsComplete := by
  intro s hv hrst
  refine ⟨⟨rfl, fun hwrite => exec_rbTick hv hrst rfl ⟨by simp [resourceWrites], ?_⟩⟩,
    rfl, fun hwrite => exec_rbTick hv hrst rfl ⟨by simp [resourceWrites], ?_⟩⟩
  · simp [resourceReads, fastBusWrites, hwrite]
  · simp [resourceReads, fastBusWrites, hwrite]

/-! ## No operation -/

/-- Settles O42: no register-bank operation is the contribution of nothing; without acceptance the fast-bus
port contributes nothing. -/
theorem tickWithoutOperation : Obligations.TickWithoutOperation := by
  intro s hv hrst
  refine ⟨step_rbTick_of_no_rbOp hv hrst, fun hacc => ?_⟩
  obtain ⟨-, -, -, -, hsome, -⟩ := fastBusPort_effect s
  have hnone : accepted s (fastBusPort s) = none := by
    rw [← Option.not_isSome_iff_eq_none, hsome, hacc]
    exact Bool.false_ne_true
  rw [step_eq]
  exact runTick_of_not_accepted hv hrst hnone

/-! ## The operations at work -/

/-- A forced block at count 100, its Capture Queue flushed, line 2 rising at phase 2 with its rising edges
enabled, a record for count 100 and one for count 200 scheduled; the fast bus presents a request in this
tick. -/
def besideFastBus (we : Bool) (adr : Nat) (wdata : Word) : State :=
  { State.reset with
    force := true, flushCap := true, counter := 100#32, riseEn := 0x04#32
    schedTime := 343#32, schedData := 0xA5#32
    capq := [⟨7#32, 1#3, 0x08#32⟩, ⟨9#32, 2#3, 0x00#32⟩]
    schq := [⟨100#32, 3#3, 0x01#32⟩, ⟨200#32, 0#3, 0x00#32⟩]
    inputs := [{ quietInput 0#32 with
      samp := Vector.ofFn fun c : Fin 32 => if c.val = 2 then 0xFC#8 else 0x00#8
      fbReq := true, fbWe := we, fbAdr := adr, fbWdata := wdata }] }

/-- O20 at a write of `ARM` beside a fast-bus write of `SCHED_TIME`: each view stores its own register. -/
theorem controlBitWritesComplete_witness :
    ∃ t, exec (.rbWrArm 3#32) (besideFastBus true 4 322#32) = .next t ∧ t.arm = true ∧
      t.force = true ∧ t.schedTime = 322#32 ∧ t.fbAck = true := by
  obtain ⟨⟨-, t, hexec, htick⟩, -⟩ :=
    controlBitWritesComplete (besideFastBus true 4 322#32) 3#32 (by decide) (by decide)
  exact ⟨t, hexec, congrArg HostRegs.arm htick.regs, congrArg HostRegs.force htick.regs,
    congrArg HostRegs.schedTime htick.regs, htick.fastBus.ack⟩

/-- O21 at a write of `FALLING_EN` with data wider than the eight channels. -/
theorem enableWritesComplete_witness :
    ∃ t, exec (.rbWrFallingEn 0x1A5#32) (besideFastBus true 4 322#32) = .next t ∧
      t.fallEn = 0xA5#32 ∧ t.riseEn = 0x04#32 ∧ t.schedTime = 322#32 := by
  obtain ⟨-, ⟨-, t, hexec, htick⟩, -⟩ :=
    enableWritesComplete (besideFastBus true 4 322#32) 0x1A5#32 (by decide) (by decide)
  exact ⟨t, hexec, congrArg HostRegs.fallEn htick.regs, congrArg HostRegs.riseEn htick.regs,
    congrArg HostRegs.schedTime htick.regs⟩

/-- O22 at a write of `SCHED_TIME` beside a fast-bus write of the other input register: both are stored. -/
theorem rbScheduleInputWritesComplete_witness :
    ∃ t, exec (.rbWrSchedTime 322#32) (besideFastBus true 5 0x1F0#32) = .next t ∧
      t.schedTime = 322#32 ∧ t.schedData = 0xF0#32 := by
  obtain ⟨⟨-, hwrite⟩, -⟩ :=
    rbScheduleInputWritesComplete (besideFastBus true 5 0x1F0#32) 322#32 (by decide) (by decide)
      (by decide)
  obtain ⟨t, hexec, htick⟩ := hwrite (by decide) (by decide)
  exact ⟨t, hexec, congrArg HostRegs.schedTime htick.regs, congrArg HostRegs.schedData htick.regs⟩

/-- `besideFastBus` at the greatest count, without a flush; the fast bus reads the capture head. -/
def atGreatestCount : State :=
  { besideFastBus false 1 0#32 with counter := 0x1FFFFFFF#32, flushCap := false }

/-- O23 at the greatest count of a running block: the counter is zeroed without a wrap pulse, and the capture
of the tick has the old count. -/
theorem counterZeroCompletes_witness :
    ∃ t, exec (.rbWrCounterZero 0#32) atGreatestCount = .next t ∧ t.counter = 0#32 ∧
      t.out.ev.getLsbD 6 = false ∧
      t.capq = atGreatestCount.capq ++ [⟨0x1FFFFFFF#32, 2#3, t.level⟩] := by
  obtain ⟨-, hstrobe⟩ := counterZeroCompletes atGreatestCount 0#32 (by decide) (by decide)
  obtain ⟨t, hexec, hcounter, hwrap, htick⟩ := hstrobe (by decide)
  exact ⟨t, hexec, hcounter, hwrap,
    capq_of_wins (c := 2) (k := 2) htick.rules.engine (by decide) (by decide) (by decide) (by decide)⟩

/-- O24 under a flush and with a capture in the same tick: one record leaves, one enters. -/
theorem rbCaptureNextCompletes_witness :
    ∃ t, exec (.rbWrCapNext 0#32) (besideFastBus true 4 322#32) = .next t ∧
      t.capq = [⟨9#32, 2#3, 0x00#32⟩, ⟨100#32, 2#3, t.level⟩] := by
  obtain ⟨-, hpop⟩ := rbCaptureNextCompletes (besideFastBus true 4 322#32) 0#32 (by decide) (by decide)
  obtain ⟨t, hexec, htick⟩ := hpop (by decide) (by decide) (by decide)
  exact ⟨t, hexec,
    capq_of_wins (c := 2) (k := 2) htick.rules.engine (by decide) (by decide) (by decide) (by decide)⟩

/-- O25 with room in the queue, beside a fast-bus pop of the Capture Queue: the due head leaves and the record
of the input registers enters. -/
theorem rbScheduleNextCompletes_witness_room :
    ∃ t r, exec (.rbWrSchedNext 0#32) (besideFastBus true 3 0#32) = .next t ∧
      t.schq = [⟨200#32, 0#3, 0x00#32⟩, r] ∧
      r.cycle.toNat = 42 ∧ r.sub.toNat = 7 ∧ r.levels = 0xA5#32 ∧ t.schedTime = 343#32 := by
  obtain ⟨-, hpush⟩ := rbScheduleNextCompletes (besideFastBus true 3 0#32) 0#32 (by decide) (by decide)
  obtain ⟨t, hexec, htick⟩ := hpush (by decide) (by decide) (by decide)
  obtain ⟨r, ⟨hcycle, hsub, hlevels⟩, hschq⟩ := htick.rules.engine.pushed rfl (by decide)
  exact ⟨t, r, hexec, hschq, hcycle, hsub, hlevels, congrArg HostRegs.schedTime htick.regs⟩

/-- `besideFastBus` at a count of no record, built with room for two records in its Schedule Queue. -/
def fullSchedule : State :=
  { besideFastBus true 3 0#32 with params := { hi32 with schDepth := 2 }, counter := 99#32 }

/-- O25 at a full queue: the record is dropped. -/
theorem rbScheduleNextCompletes_witness_full :
    ∃ t, exec (.rbWrSchedNext 0#32) fullSchedule = .next t ∧ t.schq = fullSchedule.schq := by
  obtain ⟨-, hpush⟩ := rbScheduleNextCompletes fullSchedule 0#32 (by decide) (by decide)
  obtain ⟨t, hexec, htick⟩ := hpush (by decide) (by decide) (by decide)
  exact ⟨t, hexec, htick.rules.engine.notPushed (.inr (by decide))⟩

/-- O26 at a write of `CAP_TIME`: of the storage registers only the fast bus's is stored. -/
theorem rbIgnoredWritesComplete_witness :
    ∃ t, exec (.rbWrCapTime 9#32) (besideFastBus true 4 322#32) = .next t ∧
      hostRegs t = { hostRegs (besideFastBus true 4 322#32) with schedTime := 322#32 } := by
  obtain ⟨-, -, ⟨-, t, hexec, htick⟩, -⟩ :=
    rbIgnoredWritesComplete (besideFastBus true 4 322#32) 9#32 (by decide) (by decide)
  exact ⟨t, hexec, htick.regs⟩

/-- O30 at a read of `COUNTER` in a tick that counts on: the old count is read. -/
theorem rbWordReadsComplete_witness :
    ∃ t, exec .rbRdCounter (besideFastBus true 4 322#32) = .next t ∧
      t.out.rbRdata = some 100#32 ∧ t.counter.toNat = 101 := by
  obtain ⟨-, -, t, hexec, htick⟩ :=
    rbWordReadsComplete (besideFastBus true 4 322#32) (by decide) (by decide)
  exact ⟨t, hexec, htick.rdata, htick.rules.engine.counter⟩

/-- O31 at a read of `SCHED_TIME` beside a fast-bus write of the other input register. -/
theorem rbScheduleInputReadsComplete_witness :
    ∃ t, exec .rbRdSchedTime (besideFastBus true 5 0x0F#32) = .next t ∧
      t.out.rbRdata = some 343#32 ∧ t.schedTime = 343#32 ∧ t.schedData = 0x0F#32 := by
  obtain ⟨⟨-, hread⟩, -⟩ :=
    rbScheduleInputReadsComplete (besideFastBus true 5 0x0F#32) (by decide) (by decide)
  obtain ⟨t, hexec, htick⟩ := hread (by decide)
  exact ⟨t, hexec, htick.rdata, congrArg HostRegs.schedTime htick.regs,
    congrArg HostRegs.schedData htick.regs⟩

/-- O32 at a queue with a head: its timestamp word, 7 cycles and phase 1, is read. -/
theorem rbCaptureHeadReadsComplete_witness_head :
    ∃ t, exec .rbRdCapTime (besideFastBus true 4 322#32) = .next t ∧
      t.out.rbRdata = some 57#32 := by
  obtain ⟨⟨-, t, v, hexec, htick, hhead, -⟩, -⟩ :=
    rbCaptureHeadReadsComplete (besideFastBus true 4 322#32) (by decide) (by decide) (by decide)
  have hv : v = 57#32 := hhead ⟨7#32, 1#3, 0x08#32⟩ rfl
  exact ⟨t, hexec, htick.rdata.trans (congrArg some hv)⟩

/-- O32 at an empty queue: whatever is read of `CAP_DATA` has the eight bits of the channels. -/
theorem rbCaptureHeadReadsComplete_witness_empty :
    ∃ t v, exec .rbRdCapData { besideFastBus true 4 322#32 with capq := [] } = .next t ∧
      t.out.rbRdata = some v ∧ v.toNat < 256 := by
  obtain ⟨-, -, t, v, hexec, htick, -, hempty⟩ :=
    rbCaptureHeadReadsComplete { besideFastBus true 4 322#32 with capq := [] } (by decide) (by decide)
      (by decide)
  exact ⟨t, v, hexec, htick.rdata, hempty rfl⟩

/-- O42 without a register-bank operation: the fast-bus write of `SCHED_TIME` goes on. -/
theorem tickWithoutOperation_witness_regBank :
    ∃ t, step (besideFastBus true 4 322#32) = .next t ∧ t.out.rbRdata = none ∧
      t.schedTime = 322#32 ∧ t.fbAck = true := by
  obtain ⟨t, hstep, htick⟩ :=
    (tickWithoutOperation (besideFastBus true 4 322#32) (by decide) (by decide)).1 rfl
  exact ⟨t, hstep, htick.rdata, congrArg HostRegs.schedTime htick.regs, htick.fastBus.ack⟩

/-- An acknowledge tick in which the fast bus presents a write of `SCHED_TIME` again and the register bank
writes `ARM`. -/
def acknowledgeTick : State :=
  { State.reset with
    schedTime := 343#32, fbAck := true, fbRdata := 5#32
    inputs := [{ quietInput 0#32 with
      rbOp := .write 1#5 1#32, fbReq := true, fbWe := true, fbAdr := 4, fbWdata := 322#32 }] }

/-- O42 without an accepted request: the register-bank write of `ARM` goes on. -/
theorem tickWithoutOperation_witness_fastBus :
    ∃ t, step acknowledgeTick = .next t ∧ t.arm = true ∧ t.schedTime = 343#32 ∧
      t.fbAck = false ∧ t.fbRdata = 0#32 := by
  obtain ⟨t, hstep, -, hregs, hack, hrdata, -⟩ :=
    (tickWithoutOperation acknowledgeTick (by decide) (by decide)).2 (by decide)
  exact ⟨t, hstep, congrArg HostRegs.arm hregs, congrArg HostRegs.schedTime hregs, hack, hrdata⟩

end Sys2Proof.Proofs

section
/-! The fast-bus view (spec/48_host_fastbus.md): its operations complete, and its address is decoded in the
low byte alone. -/

namespace Sys2Proof.Proofs

open Sys2Proof.Machine Sys2Proof.Config Sys2Proof.Safety Sys2Proof.Laws

/-! ## Races with the register bank -/

/-- The register-bank operation at the inputs reads the shared resource (R405). -/
def regBankReads (inp : TickInput) : Resource → Bool
  | .counter => rbReads inp 9
  | .capq => rbReads inp 10 || rbReads inp 11
  | .schedTime => rbReads inp 13 || rbWrites inp 15
  | .schedData => rbReads inp 14 || rbWrites inp 15
  | .schq => false

/-- The register-bank operation at the inputs writes the shared resource (R405). -/
def regBankWrites (inp : TickInput) : Resource → Bool
  | .counter => rbWrites inp 0
  | .capq => rbWrites inp 12
  | .schedTime => rbWrites inp 13
  | .schedData => rbWrites inp 14
  | .schq => rbWrites inp 15

/-- The register-bank operation at the inputs does not race with the fast-bus operation `i` (R405). -/
structure RegBankRaceFree (inp : TickInput) (i : Instr) : Prop where
  ofWrites : ∀ r ∈ resourceWrites i, regBankReads inp r = false ∧ regBankWrites inp r = false
  ofReads : ∀ r ∈ resourceReads i, regBankWrites inp r = false

section RegBankRaces

variable {s : State} {a : Presented} {i : Instr}

theorem regBankReads_of_mem (h : regBankPort s = some a) {r : Resource}
    (hr : r ∈ resourceReads a.instr) : regBankReads (currentInput s) r = true := by
  rw [(regBankPort_resources s a h).1] at hr
  split_ifs at hr with h9 h10 h13 h14 h15
  · simp_all [regBankReads]
  · simp_all [regBankReads]
  · simp_all [regBankReads]
  · simp_all [regBankReads]
  · rcases List.mem_pair.mp hr with rfl | rfl <;> simp [regBankReads, h15]
  · cases hr

theorem regBankWrites_of_mem (h : regBankPort s = some a) {r : Resource}
    (hr : r ∈ resourceWrites a.instr) : regBankWrites (currentInput s) r = true := by
  rw [(regBankPort_resources s a h).2] at hr
  split_ifs at hr <;> simp_all [regBankWrites]

/-- Without a race the operations of the two views do not collide (R405). -/
theorem RegBankRaceFree.not_collide (hfree : RegBankRaceFree (currentInput s) i)
    (h : regBankPort s = some a) : collide a.instr i = false := by
  have hwrites : meets (resourceWrites a.instr) (resourceReads i ++ resourceWrites i) = false := by
    refine meets_eq_false fun r ha hmem => ?_
    have hwrite : regBankWrites (currentInput s) r = false :=
      (List.mem_append.mp hmem).elim (hfree.ofReads r) fun hr => (hfree.ofWrites r hr).2
    exact Bool.false_ne_true (hwrite.symm.trans (regBankWrites_of_mem h ha))
  have hreads : meets (resourceWrites i) (resourceReads a.instr ++ resourceWrites a.instr) = false := by
    refine meets_eq_false fun r hr hmem => ?_
    obtain ⟨hread, hwrite⟩ := hfree.ofWrites r hr
    rcases List.mem_append.mp hmem with ha | ha
    · exact Bool.false_ne_true (hread.symm.trans (regBankReads_of_mem h ha))
    · exact Bool.false_ne_true (hwrite.symm.trans (regBankWrites_of_mem h ha))
  rw [collide, hwrites, hreads]
  rfl

/-- An operation that touches no shared resource races with nothing. -/
theorem RegBankRaceFree.of_own {inp : TickInput} (hw : resourceWrites i = [])
    (hr : resourceReads i = []) : RegBankRaceFree inp i :=
  ⟨by simp [hw], by simp [hr]⟩

end RegBankRaces

/-! ## A tick by the contribution of the fast bus -/

section FastBusTicks

variable {s : State}

/-- The transition of an accepted fast-bus contribution `e` beside the register-bank operation at the inputs
(R331). -/
theorem engineTick_fbTick (hv : s.params.Valid) (e : HostEffect) :
    FbTick s ⟨e.zero, e.capNext, e.schedNext⟩ (putRegs e (hostRegs s)) (e.rdata.getD 0#32)
      (engineTick s (portEffect (regBankPort s)) e true) := by
  obtain ⟨hzero, hpop, hpush, hput, hread, hnone⟩ := regBankPort_effect s
  have hrules := engineTick_tickRules s hv (portEffect (regBankPort s)) e true
  rw [hzero, hpop, hpush] at hrules
  refine ⟨hrules, ?_, rfl, rfl, hread, hnone⟩
  rw [hostRegs_engineTick, putRegs_both, hput]

/-- An accepted fast-bus operation that no register-bank operation races with completes: its strobes, stored
values and read value are those of its own contribution (R300, R301, R331). -/
theorem exec_fbTick (hv : s.params.Valid) (hrst : (currentInput s).rst = false) (hack : s.fbAck = false)
    {i : Instr} (hview : i.view = .fastBus) (hfree : RegBankRaceFree (currentInput s) i) :
    ∃ t, exec i s = .next t ∧
      FbTick s ⟨(hostEffect i s).zero, (hostEffect i s).capNext, (hostEffect i s).schedNext⟩
        (putRegs (hostEffect i s) (hostRegs s)) ((hostEffect i s).rdata.getD 0#32) t := by
  have hacc : accepted s (some (present i s)) = some (present i s) := by simp [accepted, hack]
  have hnext := runTick_next (rb := regBankPort s) (fb := some (present i s)) hrst (by
    rw [hacc]
    rintro a b ha ⟨⟩
    exact hfree.not_collide ha)
  rw [hacc] at hnext
  exact ⟨_, (exec_fastBus hview s).trans hnext, engineTick_fbTick hv _⟩

end FastBusTicks

/-! ## Ignored writes -/

/-- Settles O33: the three writes touch no shared resource and contribute nothing. -/
theorem fbIgnoredWritesComplete : Obligations.FbIgnoredWritesComplete := by
  intro s d hv hrst hack
  refine ⟨⟨rfl, ?_⟩, ⟨rfl, ?_⟩, rfl, ?_⟩ <;>
    exact exec_fbTick hv hrst hack rfl (.of_own rfl rfl)

/-! ## Schedule input -/

/-- Settles O34: only a register-bank push, and a register-bank access to the same register, race with a
write. -/
theorem fbScheduleInputWritesComplete : Obligations.FbScheduleInputWritesComplete := by
  intro s d hv hrst hack hpush
  refine ⟨⟨rfl, fun hread hwrite => exec_fbTick hv hrst hack rfl ⟨?_, by simp [resourceReads]⟩⟩,
    rfl, fun hread hwrite => exec_fbTick hv hrst hack rfl ⟨?_, by simp [resourceReads]⟩⟩
  · simp [resourceWrites, regBankReads, regBankWrites, hpush, hread, hwrite]
  · simp [resourceWrites, regBankReads, regBankWrites, hpush, hread, hwrite]

/-- Settles O36: only a register-bank write of an input register and a register-bank push race with the
push. -/
theorem fbScheduleNextCompletes : Obligations.FbScheduleNextCompletes := by
  intro s d hv hrst hack
  refine ⟨rfl, fun htime hdata hpush => exec_fbTick hv hrst hack rfl ⟨?_, ?_⟩⟩
  · simp [resourceWrites, regBankReads, regBankWrites, hpush]
  · simp [resourceReads, regBankWrites, htime, hdata]

/-- Settles O37: only a register-bank write of the register read, for the counter its zero strobe, races with
a read. -/
theorem fbWordReadsComplete : Obligations.FbWordReadsComplete := by
  intro s hv hrst hack
  refine ⟨⟨rfl, fun hwrite => ?_⟩, ⟨rfl, fun hwrite => ?_⟩, rfl, fun hwrite => ?_⟩ <;>
    exact exec_fbTick hv hrst hack rfl
      ⟨by simp [resourceWrites], by simp [resourceReads, regBankWrites, hwrite]⟩

/-! ## Capture head -/

/-- Settles O35: only a register-bank read or pop of the Capture Queue races with the pop. -/
theorem fbCaptureNextCompletes : Obligations.FbCaptureNextCompletes := by
  intro s d hv hrst hack
  refine ⟨rfl, fun htime hdata hpop => exec_fbTick hv hrst hack rfl ⟨?_, by simp [resourceReads]⟩⟩
  simp [resourceWrites, regBankReads, regBankWrites, htime, hdata, hpop]

/-- Settles O40: only a register-bank pop races with the reads, and the value read is that of the head of
`S_t`. -/
theorem fbCaptureHeadReadsComplete : Obligations.FbCaptureHeadReadsComplete := by
  intro s hv hrst hack hpop
  have htime : RegBankRaceFree (currentInput s) .fbRdCapTime :=
    ⟨by simp [resourceWrites], by simp [resourceReads, regBankWrites, hpop]⟩
  have hdata : RegBankRaceFree (currentInput s) .fbRdCapData :=
    ⟨by simp [resourceWrites], by simp [resourceReads, regBankWrites, hpop]⟩
  constructor
  · obtain ⟨t, hexec, htick⟩ := exec_fbTick hv hrst hack rfl htime
    exact ⟨rfl, t, _, hexec, htick, fun r hr => captureTimeValue_of_head hr _,
      fun hq => captureTimeValue_lt_of_empty hq _⟩
  · obtain ⟨t, hexec, htick⟩ := exec_fbTick hv hrst hack rfl hdata
    exact ⟨rfl, t, _, hexec, htick, fun r hr => captureDataValue_of_head hr _,
      fun hq => captureDataValue_lt_of_empty hq _⟩

/-! ## Address aliases -/

/-- `s` with the fast-bus address `adr` at the inputs of this tick, its other inputs `inp` and the inputs of
the ticks after it `rest`. -/
def withFbAdr (s : State) (inp : TickInput) (rest : List TickInput) (adr : Nat) : State :=
  { s with inputs := { inp with fbAdr := adr } :: rest }

section Aliases

variable {s : State} {inp : TickInput} {rest : List TickInput}

theorem currentInput_of_cons (h : s.inputs = inp :: rest) : currentInput s = inp := by
  rw [currentInput, h]

theorem lowByte_alias (adr n : Nat) : lowByte (adr % 256 + 256 * n) = lowByte adr := by
  apply BitVec.eq_of_toNat_eq
  simp only [lowByte, BitVec.toNat_ofNat]
  omega

/-- No operation's contribution is computed from the inputs. -/
theorem hostEffect_withFbAdr (i : Instr) (adr : Nat) :
    hostEffect i (withFbAdr s inp rest adr) = hostEffect i s := by
  cases i <;> rfl

theorem regBankPort_withFbAdr (h : s.inputs = inp :: rest) (adr : Nat) :
    regBankPort (withFbAdr s inp rest adr) = regBankPort s := by
  simp only [regBankPort, present, hostEffect_withFbAdr, currentInput_of_cons h]
  rfl

theorem fastBusPort_withFbAdr (h : s.inputs = inp :: rest) {adr : Nat}
    (hadr : lowByte adr = lowByte inp.fbAdr) :
    fastBusPort (withFbAdr s inp rest adr) = fastBusPort s := by
  have hinstr : fbInstrOf { inp with fbAdr := adr } = fbInstrOf inp := by simp only [fbInstrOf, hadr]
  simp only [fastBusPort, present, hostEffect_withFbAdr, currentInput_of_cons h, ← hinstr]
  rfl

/-- The transition reads no address: the address acts through the fast-bus contribution alone (R331). -/
theorem engineTick_withFbAdr (h : s.inputs = inp :: rest) (adr : Nat) (rb fb : HostEffect) (a : Bool) :
    engineTick (withFbAdr s inp rest adr) rb fb a = engineTick s rb fb a := by
  simp only [engineTick, currentInput_of_cons h, h]
  rfl

theorem resetTick_withFbAdr (h : s.inputs = inp :: rest) (adr : Nat) (op : Bool) :
    resetTick (withFbAdr s inp rest adr) op = resetTick s op := by
  simp only [resetTick, resetTickOutputs, currentInput_of_cons h, h]
  rfl

theorem runTick_withFbAdr (h : s.inputs = inp :: rest) (adr : Nat) (rb fb : Option Presented) :
    runTick rb fb (withFbAdr s inp rest adr) = runTick rb fb s := by
  simp only [runTick, engineTick_withFbAdr h, resetTick_withFbAdr h, currentInput_of_cons h]
  rfl

end Aliases

/-- Settles O9: the address reaches a tick through the decoded low byte of the fast-bus port alone. -/
theorem fastBusAddressAliases : Obligations.FastBusAddressAliases := by
  intro s inp rest n h
  change step (withFbAdr s inp rest (inp.fbAdr % 256 + 256 * n)) = step s
  rw [step_eq, step_eq, regBankPort_withFbAdr h, fastBusPort_withFbAdr h (lowByte_alias _ _),
    runTick_withFbAdr h]

/-! ## The fast-bus operations at work -/

/-- The tick of `besideFastBus`, a forced block at count 100, with a register-bank operation in place of the
fast-bus request. -/
def besideRegBank (op : RbOp) : State :=
  { besideFastBus false 0 0#32 with
    inputs := [{ currentInput (besideFastBus false 0 0#32) with rbOp := op, fbReq := false }] }

/-- The state with its Capture Queue not flushed: what leaves the queue leaves by a pop. -/
def unflushed (s : State) : State := { s with flushCap := false }

/-- O9 at the pop: `0x103` is the address `0x03`, so one record leaves, and the capture of the tick enters. -/
theorem fastBusAddressAliases_witness :
    ∃ t, step (unflushed (besideFastBus true 0x103 0#32)) = .next t ∧
      t.capq = [⟨9#32, 2#3, 0x00#32⟩, ⟨100#32, 2#3, t.level⟩] ∧ t.fbAck = true := by
  have halias : step (unflushed (besideFastBus true 0x103 0#32)) =
      step (unflushed (besideFastBus true 0x03 0#32)) :=
    fastBusAddressAliases (unflushed (besideFastBus true 0x03 0#32)) _ [] 1 rfl
  obtain ⟨t, hstep, htick⟩ :=
    (tickWithoutOperation (unflushed (besideFastBus true 0x03 0#32)) (by decide) (by decide)).1 rfl
  exact ⟨t, halias.trans hstep,
    capq_of_wins (c := 2) (k := 2) htick.rules.engine (by decide) (by decide) (by decide) (by decide),
    htick.fastBus.ack⟩

/-- O33 at a write of `COUNTER` beside a register-bank write of `ARM`: the block counts on, and of the storage
registers only the register bank's is stored. -/
theorem fbIgnoredWritesComplete_witness :
    ∃ t, exec (.fbWrCounter 5#32) (besideRegBank (.write 1#5 1#32)) = .next t ∧
      t.counter.toNat = 101 ∧ t.fbAck = true ∧
      hostRegs t = { hostRegs (besideRegBank (.write 1#5 1#32)) with arm := true } := by
  obtain ⟨⟨-, t, hexec, htick⟩, -⟩ :=
    fbIgnoredWritesComplete (besideRegBank (.write 1#5 1#32)) 5#32 (by decide) (by decide) rfl
  exact ⟨t, hexec, htick.rules.engine.counter, htick.ack, htick.regs⟩

/-- O34 at a write of `SCHED_DATA` wider than the eight channels, beside a register-bank write of the other
input register: both are stored. -/
theorem fbScheduleInputWritesComplete_witness :
    ∃ t, exec (.fbWrSchedData 0x1F0#32) (besideRegBank (.write 13#5 322#32)) = .next t ∧
      t.schedTime = 322#32 ∧ t.schedData = 0xF0#32 := by
  obtain ⟨-, -, hwrite⟩ :=
    fbScheduleInputWritesComplete (besideRegBank (.write 13#5 322#32)) 0x1F0#32 (by decide) (by decide)
      rfl (by decide)
  obtain ⟨t, hexec, htick⟩ := hwrite (by decide) (by decide)
  exact ⟨t, hexec, congrArg HostRegs.schedTime htick.regs, congrArg HostRegs.schedData htick.regs⟩

/-- O35 with a capture in the same tick, beside a register-bank read of the counter: one
record leaves, one enters. -/
theorem fbCaptureNextCompletes_witness :
    ∃ t, exec (.fbWrCapNext 0#32) (unflushed (besideRegBank (.read 9#5))) = .next t ∧
      t.capq = [⟨9#32, 2#3, 0x00#32⟩, ⟨100#32, 2#3, t.level⟩] ∧ t.fbAck = true := by
  obtain ⟨-, hpop⟩ :=
    fbCaptureNextCompletes (unflushed (besideRegBank (.read 9#5))) 0#32 (by decide) (by decide) rfl
  obtain ⟨t, hexec, htick⟩ := hpop (by decide) (by decide) (by decide)
  exact ⟨t, hexec,
    capq_of_wins (c := 2) (k := 2) htick.rules.engine (by decide) (by decide) (by decide) (by decide),
    htick.ack⟩

/-- O36 with room in the queue, beside a register-bank pop of the Capture Queue: the due head leaves and the
record of the input registers enters. -/
theorem fbScheduleNextCompletes_witness_room :
    ∃ t r, exec (.fbWrSchedNext 0#32) (besideRegBank (.write 12#5 0#32)) = .next t ∧
      t.schq = [⟨200#32, 0#3, 0x00#32⟩, r] ∧
      r.cycle.toNat = 42 ∧ r.sub.toNat = 7 ∧ r.levels = 0xA5#32 ∧ t.schedTime = 343#32 := by
  obtain ⟨-, hpush⟩ :=
    fbScheduleNextCompletes (besideRegBank (.write 12#5 0#32)) 0#32 (by decide) (by decide) rfl
  obtain ⟨t, hexec, htick⟩ := hpush (by decide) (by decide) (by decide)
  obtain ⟨r, ⟨hcycle, hsub, hlevels⟩, hschq⟩ := htick.rules.engine.pushed rfl (by decide)
  exact ⟨t, r, hexec, hschq, hcycle, hsub, hlevels, congrArg HostRegs.schedTime htick.regs⟩

/-- O36 at a full queue: the record is dropped. -/
theorem fbScheduleNextCompletes_witness_full :
    ∃ t, exec (.fbWrSchedNext 0#32) fullSchedule = .next t ∧ t.schq = fullSchedule.schq := by
  obtain ⟨-, hpush⟩ := fbScheduleNextCompletes fullSchedule 0#32 (by decide) (by decide) rfl
  obtain ⟨t, hexec, htick⟩ := hpush (by decide) (by decide) (by decide)
  exact ⟨t, hexec, htick.rules.engine.notPushed (.inr (by decide))⟩

/-- O37 at a read of `COUNTER` in a tick that counts on: the old count is read. -/
theorem fbWordReadsComplete_witness :
    ∃ t, exec .fbRdCounter (besideRegBank (.write 1#5 1#32)) = .next t ∧
      t.fbAck = true ∧ t.fbRdata = 100#32 ∧ t.counter.toNat = 101 := by
  obtain ⟨⟨-, hread⟩, -⟩ :=
    fbWordReadsComplete (besideRegBank (.write 1#5 1#32)) (by decide) (by decide) rfl
  obtain ⟨t, hexec, htick⟩ := hread (by decide)
  exact ⟨t, hexec, htick.ack, htick.rdata, htick.rules.engine.counter⟩

/-- O40 at a queue with a head, the register bank reading the head too: its timestamp word, 7 cycles and phase
1, is read. -/
theorem fbCaptureHeadReadsComplete_witness_head :
    ∃ t, exec .fbRdCapTime (besideRegBank (.read 10#5)) = .next t ∧ t.fbRdata = 57#32 := by
  obtain ⟨⟨-, t, v, hexec, htick, hhead, -⟩, -⟩ :=
    fbCaptureHeadReadsComplete (besideRegBank (.read 10#5)) (by decide) (by decide) rfl (by decide)
  have hv : v = 57#32 := hhead ⟨7#32, 1#3, 0x08#32⟩ rfl
  exact ⟨t, hexec, htick.rdata.trans hv⟩

/-- O40 at an empty queue: whatever is read of `CAP_DATA` has the eight bits of the channels. -/
theorem fbCaptureHeadReadsComplete_witness_empty :
    ∃ t, exec .fbRdCapData { besideRegBank (.read 10#5) with capq := [] } = .next t ∧
      t.fbAck = true ∧ t.fbRdata.toNat < 256 := by
  obtain ⟨-, -, t, v, hexec, htick, -, hempty⟩ :=
    fbCaptureHeadReadsComplete { besideRegBank (.read 10#5) with capq := [] } (by decide) (by decide) rfl
      (by decide)
  exact ⟨t, hexec, htick.ack, htick.rdata ▸ hempty rfl⟩

end Sys2Proof.Proofs
end

section
/-! The transition of one tick (spec/49_tick.md). -/

namespace Sys2Proof.Proofs

open Sys2Proof.Machine Sys2Proof.Config Sys2Proof.Safety Sys2Proof.Laws

/-! ## Hazards of R406 as races for one resource -/

section Hazards

variable {s : State} {r : Resource}

/-- A register-bank write of a resource that the fast bus reads or writes is one of the pairs of R406. -/
theorem hazardTick_of_regBankWrites (hrb : regBankWrites (currentInput s) r = true)
    (hfb : fastBusReads s r = true ∨ fastBusWrites s r = true) : HazardTick s (currentInput s) := by
  cases r with
  | counter => exact .inl ⟨hrb, hfb.resolve_right Bool.false_ne_true⟩
  | capq =>
    simp only [fastBusReads, fastBusWrites, Bool.or_eq_true] at hfb
    exact .inr (.inl ⟨hrb, or_assoc.mp hfb⟩)
  | schedTime =>
    simp only [fastBusReads, fastBusWrites, Bool.or_eq_true] at hfb
    exact .inr (.inr (.inr (.inl ⟨hrb, or_assoc.mp (or_right_comm.mp hfb)⟩)))
  | schedData =>
    simp only [fastBusReads, fastBusWrites, Bool.or_eq_true] at hfb
    exact .inr (.inr (.inr (.inr (.inr (.inl ⟨hrb, or_assoc.mp (or_right_comm.mp hfb)⟩)))))
  | schq =>
    exact .inr (.inr (.inr (.inr (.inr (.inr (.inr ⟨hrb, hfb.resolve_left Bool.false_ne_true⟩))))))

/-- A register-bank read of a resource that the fast bus writes is one of the pairs of R406. -/
theorem hazardTick_of_regBankReads (hrb : regBankReads (currentInput s) r = true)
    (hfb : fastBusWrites s r = true) : HazardTick s (currentInput s) := by
  cases r with
  | counter => cases hfb
  | capq => exact .inr (.inr (.inl ⟨(Bool.or_eq_true _ _).mp hrb, hfb⟩))
  | schedTime => exact .inr (.inr (.inr (.inr (.inl ⟨(Bool.or_eq_true _ _).mp hrb, hfb⟩))))
  | schedData =>
    exact .inr (.inr (.inr (.inr (.inr (.inr (.inl ⟨(Bool.or_eq_true _ _).mp hrb, hfb⟩))))))
  | schq => cases hrb

/-- Outside a hazard tick the fast bus does not race with the register-bank operation presented (R406). -/
theorem RaceFree.of_not_hazardTick (hno : ¬ HazardTick s (currentInput s)) {a : Presented}
    (ha : regBankPort s = some a) : RaceFree s a.instr where
  ofWrites r hr := by
    have hrb := regBankWrites_of_mem ha hr
    exact ⟨Bool.eq_false_of_not_eq_true fun h => hno (hazardTick_of_regBankWrites hrb (.inl h)),
      Bool.eq_false_of_not_eq_true fun h => hno (hazardTick_of_regBankWrites hrb (.inr h))⟩
  ofReads r hr := Bool.eq_false_of_not_eq_true fun h =>
    hno (hazardTick_of_regBankReads (regBankReads_of_mem ha hr) h)

end Hazards

/-! ## The outcomes of a step -/

section Steps

variable {s : State}

/-- A step with `rst = 1` (R331 part 0, R390). -/
theorem step_of_reset (hrst : (currentInput s).rst = true) :
    step s = .next (resetTick s (regBankPort s).isSome) := by
  rw [step_eq, runTick_reset _ _ hrst]

/-- A step without reset and outside a hazard tick is the transition with what both ports contribute
(R331). -/
theorem step_of_not_hazardTick (hrst : (currentInput s).rst = false)
    (hno : ¬ HazardTick s (currentInput s)) :
    step s = .next (engineTick s (portEffect (regBankPort s))
      (portEffect (accepted s (fastBusPort s))) (accepted s (fastBusPort s)).isSome) := by
  rw [step_eq]
  exact runTick_next hrst fun a b ha hb => (RaceFree.of_not_hazardTick hno ha).not_collide hb

end Steps

/-! ## What both ports contribute to the transition -/

/-- The storage registers after a transition: the store of the fast bus, then that of the register bank
(R331 parts 10 and 11). -/
theorem hostRegs_portEffects (s : State) (accept : Bool) :
    hostRegs (engineTick s (portEffect (regBankPort s)) (portEffect (accepted s (fastBusPort s)))
      accept) = rbStores s.params (currentInput s) (fbStores s (currentInput s) (hostRegs s)) := by
  obtain ⟨-, -, -, hrb, -⟩ := regBankPort_effect s
  obtain ⟨-, -, -, hfb, -⟩ := fastBusPort_effect s
  rw [hostRegs_engineTick, putRegs_both, hfb, hrb]

/-- What the register-bank view reads in a transition (R255, R290). -/
theorem regBankRules_portEffect (s : State) (fb : HostEffect) (accept : Bool) :
    RegBankRules s (currentInput s) (engineTick s (portEffect (regBankPort s)) fb accept) := by
  obtain ⟨-, -, -, -, hread, hnone⟩ := regBankPort_effect s
  exact ⟨hread, hnone⟩

/-- The fast-bus registers after a transition (R331 part 11). -/
theorem fastBusRules_portEffect (s : State) (rb : HostEffect) :
    FastBusRules s (currentInput s) (engineTick s rb (portEffect (accepted s (fastBusPort s)))
      (accepted s (fastBusPort s)).isSome) := by
  obtain ⟨-, -, -, -, hack, hread, hnone⟩ := fastBusPort_effect s
  exact ⟨hack, hread, hnone⟩

/-! ## R331 -/

/-- Settles O10: reset comes first; outside the pairs of R406 nothing collides, so the step is the transition
with what both ports contribute, and each part of it has its rule. -/
theorem tickFollowsTransition : Obligations.TickFollowsTransition := by
  intro s hv
  refine ⟨fun hrst => ⟨_, step_of_reset hrst, rfl⟩, fun hrst hno => ?_⟩
  have hstep := step_of_not_hazardTick hrst hno
  exact ⟨_, hstep, step_tickRules hv hrst hstep, hostRegs_portEffects s _,
    regBankRules_portEffect s _ _, fastBusRules_portEffect s _⟩

/-! ## The transition at work -/

/-- The block of `besideFastBus`, unflushed, under an accepted fast-bus write of `SCHED_TIME` beside a
register-bank operation, with the reset line at `rst`. -/
def besideScheduleWrite (rst : Bool) (op : RbOp) : State :=
  { unflushed (besideFastBus true 4 322#32) with
    inputs := (besideFastBus true 4 322#32).inputs.map fun inp => { inp with rst := rst, rbOp := op } }

/-- O10 at a register-bank pop beside the fast-bus write: the record popped leaves and the captured one enters,
the due head of the Schedule Queue fires, the counter goes on, the fast bus stores and acknowledges. -/
theorem tickFollowsTransition_witness_next :
    ∃ t, step (besideScheduleWrite false (.write 12#5 0#32)) = .next t ∧ t.counter.toNat = 101 ∧
      t.capq = [⟨9#32, 2#3, 0x00#32⟩, ⟨100#32, 2#3, t.level⟩] ∧ t.schq = [⟨200#32, 0#3, 0x00#32⟩] ∧
      t.schedTime = 322#32 ∧ t.schedData = 0xA5#32 ∧ t.out.rbRdata = none ∧ t.fbAck = true := by
  obtain ⟨t, hstep, hrules, hregs, hrb, hfb⟩ :=
    (tickFollowsTransition (besideScheduleWrite false (.write 12#5 0#32)) (by decide)).2
      (by decide) (by decide)
  exact ⟨t, hstep, hrules.engine.counter,
    capq_of_wins (c := 2) (k := 2) hrules.engine (by decide) (by decide) (by decide) (by decide),
    hrules.engine.notPushed (.inl (by decide)), congrArg HostRegs.schedTime hregs,
    congrArg HostRegs.schedData hregs, hrb.none fun _ => rfl, hfb.ack⟩

/-- O10 at a reset beside two writes of one register: reset comes before the hazard, and neither store is
made. -/
theorem tickFollowsTransition_witness_reset :
    HazardTick (besideScheduleWrite false (.write 13#5 5#32))
      (currentInput (besideScheduleWrite false (.write 13#5 5#32))) ∧
    ∃ t, step (besideScheduleWrite true (.write 13#5 5#32)) = .next t ∧ t.schedTime = 0#32 ∧
      t.capq = [] ∧ t.fbAck = false := by
  obtain ⟨t, hstep, ht⟩ :=
    (tickFollowsTransition (besideScheduleWrite true (.write 13#5 5#32)) (by decide)).1 (by decide)
  exact ⟨by decide, t, hstep, congrArg State.schedTime ht, congrArg State.capq ht,
    congrArg State.fbAck ht⟩

end Sys2Proof.Proofs
end

section
/-! The encodings (spec/30_encoding.md): decoder and encoder are each other's inverse and follow the opcode
table, and the ports present what the decoder reads. -/

namespace Sys2Proof.Proofs

open Sys2Proof.Machine Sys2Proof.Laws

/-! ## Every operation has its key -/

/-- A well-formed register-bank operation is encoded as a request from which its decoder reads it back
(R100). -/
theorem exists_rbKey {i : Instr} (hwf : i.wellFormed = true) (hview : i.view = .regBank) :
    ∃ key d, encode i = rbRequest key d ∧ decodeRb key d = i := by
  cases i with
  | rbRdReserved idx =>
    exact ⟨_, _, rfl, (decodeRb_read idx _).trans (decodeRbRead_reserved (of_decide_eq_true hwf))⟩
  | rbWrReserved idx d =>
    exact ⟨_, _, rfl, (decodeRb_write idx d).trans (decodeRbWrite_reserved (of_decide_eq_true hwf) d)⟩
  | _ => first | exact ⟨_, _, rfl, rfl⟩ | cases hview

/-- A well-formed fast-bus operation is encoded as a request from which its decoder reads it back (R101). -/
theorem exists_fbKey {i : Instr} (hwf : i.wellFormed = true) (hview : i.view = .fastBus) :
    ∃ key d, encode i = fbRequest key d ∧ decodeFb key d = i := by
  cases i with
  | fbRdReserved adr =>
    exact ⟨_, _, rfl, (decodeFb_read adr _).trans (decodeFbRead_reserved (of_decide_eq_true hwf))⟩
  | fbWrReserved adr d =>
    exact ⟨_, _, rfl, (decodeFb_write adr d).trans (decodeFbWrite_reserved (of_decide_eq_true hwf) d)⟩
  | _ => first | exact ⟨_, _, rfl, rfl⟩ | cases hview

/-- Settles O1: in each view the encoding is a request for a key the operation is decoded from, and the decoder
reads that key and its data word from the request's bytes. -/
theorem decodeOfEncode : Obligations.DecodeOfEncode := by
  intro i hwf
  cases hview : i.view with
  | regBank =>
    obtain ⟨key, d, henc, hdec⟩ := exists_rbKey hwf hview
    rw [henc, rbRequest, decode_rbRequest, hdec]
  | fastBus =>
    obtain ⟨key, d, henc, hdec⟩ := exists_fbKey hwf hview
    rw [henc, fbRequest, decode_fbRequest, hdec]

/-- Settles O5: each of the eight requests is decoded by its view's table. -/
theorem sampleRequestsDecode : Obligations.SampleRequestsDecode := by
  refine ⟨?_, ?_, ?_, ?_, ?_, ?_, ?_, ?_⟩ <;> rfl

/-! ## Every key has its operation -/

theorem decodeRbRead_wellFormed (idx : BitVec 5) :
    (decodeRbRead idx).wellFormed = true := by
  rcases Nat.lt_or_ge idx.toNat 16 with h | h
  · unfold decodeRbRead
    interval_cases idx.toNat <;> rfl
  · rw [decodeRbRead_reserved h]
    exact decide_eq_true h

theorem decodeRbWrite_wellFormed (idx : BitVec 5) (d : Word) :
    (decodeRbWrite idx d).wellFormed = true := by
  rcases Nat.lt_or_ge idx.toNat 16 with h | h
  · unfold decodeRbWrite
    interval_cases idx.toNat <;> rfl
  · rw [decodeRbWrite_reserved h]
    exact decide_eq_true h

theorem decodeFbRead_wellFormed (adr : BitVec 8) :
    (decodeFbRead adr).wellFormed = true := by
  rcases Nat.lt_or_ge adr.toNat 7 with h | h
  · unfold decodeFbRead
    interval_cases adr.toNat <;> rfl
  · rw [decodeFbRead_reserved h]
    exact decide_eq_true h

theorem decodeFbWrite_wellFormed (adr : BitVec 8) (d : Word) :
    (decodeFbWrite adr d).wellFormed = true := by
  rcases Nat.lt_or_ge adr.toNat 7 with h | h
  · unfold decodeFbWrite
    interval_cases adr.toNat <;> rfl
  · rw [decodeFbWrite_reserved h]
    exact decide_eq_true h

/-- What the register-bank decoder reads is well-formed (R125). -/
theorem decodeRb_wellFormed (key : BitVec 6) (d : Word) : (decodeRb key d).wellFormed = true := by
  unfold decodeRb
  split
  · exact decodeRbWrite_wellFormed _ d
  · exact decodeRbRead_wellFormed _

/-- What the fast-bus decoder reads is well-formed (R126). -/
theorem decodeFb_wellFormed (key : BitVec 9) (d : Word) : (decodeFb key d).wellFormed = true := by
  unfold decodeFb
  split
  · exact decodeFbWrite_wellFormed _ d
  · exact decodeFbRead_wellFormed _

/-- What the register-bank decoder reads is encoded with the same key, a write with the same data (R100). -/
theorem encode_decodeRb (key : BitVec 6) (d : Word) :
    encode (decodeRb key d) = rbRequest key (if rbreqWe key then d else 0#32) := by
  have hkey : ∀ key : BitVec 6, BitVec.ofBool (rbreqWe key) ++ rbreqIdx key = key := by decide
  have hsplit := hkey key
  unfold decodeRb
  split_ifs with hwe <;> simp only [hwe, BitVec.ofBool_true, BitVec.ofBool_false] at hsplit
  · exact (encode_decodeRbWrite _ d).trans (congrArg (rbRequest · d) hsplit)
  · exact (encode_decodeRbRead _).trans (congrArg (rbRequest · 0#32) hsplit)

/-- What the fast-bus decoder reads is encoded with the same key, a write with the same data (R101). -/
theorem encode_decodeFb (key : BitVec 9) (d : Word) :
    encode (decodeFb key d) = fbRequest key (if fbreqWe key then d else 0#32) := by
  have hkey : ∀ key : BitVec 9, BitVec.ofBool (fbreqWe key) ++ fbreqAdr key = key := by decide
  have hsplit := hkey key
  unfold decodeFb
  split_ifs with hwe <;> simp only [hwe, BitVec.ofBool_true, BitVec.ofBool_false] at hsplit
  · exact (encode_decodeFbWrite _ d).trans (congrArg (fbRequest · d) hsplit)
  · exact (encode_decodeFbRead _).trans (congrArg (fbRequest · 0#32) hsplit)

theorem requestKey_rbRequest (key : BitVec 6) (d : Word) :
    requestKey (rbRequest key d) = key.toNat := by
  have hlt := key.isLt
  simp only [rbRequest, requestKey, BitVec.toNat_setWidth]
  omega

theorem requestKey_fbRequest (key : BitVec 9) (d : Word) :
    requestKey (fbRequest key d) = key.toNat := by
  have hkey : ∀ key : BitVec 9,
      ((key.extractLsb' 8 1).setWidth 8 ++ key.extractLsb' 0 8).toNat = key.toNat := by decide
  exact hkey key

/-! ## The bytes the decoder accepts -/

/-- Two bytes side by side, as a number. -/
theorem toNat_append_bytes (hi lo : Byte) : (hi ++ lo).toNat = 256 * hi.toNat + lo.toNat := by
  rw [BitVec.toNat_append, ← Nat.shiftLeft_add_eq_or_of_lt lo.isLt, Nat.shiftLeft_eq, Nat.mul_comm]

/-- The register-bank decoder accepts the bytes of requests alone (R100, log entry 9). -/
theorem decode_regBank_eq_ok {bytes : List Byte} {i : Instr} (h : decode .regBank bytes = .ok i) :
    ∃ key d, (View.regBank, bytes) = rbRequest key d ∧ i = decodeRb key d := by
  unfold decode at h
  split at h
  next k b0 b1 b2 b3 _ =>
    split_ifs at h with hk
    have hwidth : (k.setWidth 6).setWidth 8 = k := by
      apply BitVec.eq_of_toNat_eq
      simp only [BitVec.toNat_setWidth]
      omega
    refine ⟨k.setWidth 6, wordOfBytes b0 b1 b2 b3, ?_, (Except.ok.inj h).symm⟩
    rw [rbRequest, hwidth, bytesOfWord_word]
  next hview => cases hview
  next => cases h
  next hview _ => cases hview

/-- The fast-bus decoder accepts the bytes of requests alone (R101, log entry 9). -/
theorem decode_fastBus_eq_ok {bytes : List Byte} {i : Instr} (h : decode .fastBus bytes = .ok i) :
    ∃ key d, (View.fastBus, bytes) = fbRequest key d ∧ i = decodeFb key d := by
  unfold decode at h
  split at h
  next hview => cases hview
  next k0 k1 b0 b1 b2 b3 _ =>
    split_ifs at h with hk
    refine ⟨(k1 ++ k0).setWidth 9, wordOfBytes b0 b1 b2 b3, ?_, (Except.ok.inj h).symm⟩
    have hnum := toNat_append_bytes k1 k0
    have hlt := k0.isLt
    have hk0 : ((k1 ++ k0).setWidth 9).extractLsb' 0 8 = k0 := by
      apply BitVec.eq_of_toNat_eq
      rw [BitVec.extractLsb'_toNat, BitVec.toNat_setWidth, hnum, Nat.shiftRight_zero]
      omega
    have hk1 : (((k1 ++ k0).setWidth 9).extractLsb' 8 1).setWidth 8 = k1 := by
      apply BitVec.eq_of_toNat_eq
      rw [BitVec.toNat_setWidth, BitVec.extractLsb'_toNat, BitVec.toNat_setWidth, hnum,
        Nat.shiftRight_eq_div_pow]
      omega
    rw [fbRequest, hk0, hk1, bytesOfWord_word]
  next hview _ => cases hview
  next => cases h

/-- Settles O2: what is decoded from a request is encoded with its key, and a key with its write bit set has
the request's data word too. -/
theorem encodeOfDecode : Obligations.EncodeOfDecode := by
  intro v bytes i h
  cases v with
  | regBank =>
    obtain ⟨key, d, hreq, rfl⟩ := decode_regBank_eq_ok h
    have hwe : ∀ key : BitVec 6, 32 ≤ key.toNat → rbreqWe key = true := by decide
    rw [encode_decodeRb, hreq, requestKey_rbRequest, requestKey_rbRequest]
    refine ⟨decodeRb_wellFormed key d, decodeRb_view key d, rfl, rfl, ?_⟩
    rintro (⟨-, hkey⟩ | ⟨hview, -⟩)
    · rw [if_pos (hwe key hkey)]
    · cases hview
  | fastBus =>
    obtain ⟨key, d, hreq, rfl⟩ := decode_fastBus_eq_ok h
    have hwe : ∀ key : BitVec 9, 256 ≤ key.toNat → fbreqWe key = true := by decide
    rw [encode_decodeFb, hreq, requestKey_fbRequest, requestKey_fbRequest]
    refine ⟨decodeFb_wellFormed key d, decodeFb_view key d, rfl, rfl, ?_⟩
    rintro (⟨hview, -⟩ | ⟨-, hkey⟩)
    · cases hview
    · rw [if_pos (hwe key hkey)]

/-! ## The opcode table -/

/-- Settles O4: the laws of the encoder have one lemma for each operation. -/
theorem encodeFollowsOpcodeTable : Obligations.EncodeFollowsOpcodeTable
  | .rbWrCounterZero d => EncodeFollowsTable.rbWrCounterZero d
  | .rbRdCounterZero => EncodeFollowsTable.rbRdCounterZero
  | .rbWrArm d => EncodeFollowsTable.rbWrArm d
  | .rbRdArm => EncodeFollowsTable.rbRdArm
  | .rbWrForce d => EncodeFollowsTable.rbWrForce d
  | .rbRdForce => EncodeFollowsTable.rbRdForce
  | .rbWrFlushCapture d => EncodeFollowsTable.rbWrFlushCapture d
  | .rbRdFlushCapture => EncodeFollowsTable.rbRdFlushCapture
  | .rbWrFlushSchedule d => EncodeFollowsTable.rbWrFlushSchedule d
  | .rbRdFlushSchedule => EncodeFollowsTable.rbRdFlushSchedule
  | .rbWrLevel d => EncodeFollowsTable.rbWrLevel d
  | .rbRdLevel => EncodeFollowsTable.rbRdLevel
  | .rbWrRisingEn d => EncodeFollowsTable.rbWrRisingEn d
  | .rbRdRisingEn => EncodeFollowsTable.rbRdRisingEn
  | .rbWrFallingEn d => EncodeFollowsTable.rbWrFallingEn d
  | .rbRdFallingEn => EncodeFollowsTable.rbRdFallingEn
  | .rbWrOutputEn d => EncodeFollowsTable.rbWrOutputEn d
  | .rbRdOutputEn => EncodeFollowsTable.rbRdOutputEn
  | .rbWrCounter d => EncodeFollowsTable.rbWrCounter d
  | .rbRdCounter => EncodeFollowsTable.rbRdCounter
  | .rbWrCapTime d => EncodeFollowsTable.rbWrCapTime d
  | .rbRdCapTime => EncodeFollowsTable.rbRdCapTime
  | .rbWrCapData d => EncodeFollowsTable.rbWrCapData d
  | .rbRdCapData => EncodeFollowsTable.rbRdCapData
  | .rbWrCapNext d => EncodeFollowsTable.rbWrCapNext d
  | .rbRdCapNext => EncodeFollowsTable.rbRdCapNext
  | .rbWrSchedTime d => EncodeFollowsTable.rbWrSchedTime d
  | .rbRdSchedTime => EncodeFollowsTable.rbRdSchedTime
  | .rbWrSchedData d => EncodeFollowsTable.rbWrSchedData d
  | .rbRdSchedData => EncodeFollowsTable.rbRdSchedData
  | .rbWrSchedNext d => EncodeFollowsTable.rbWrSchedNext d
  | .rbRdSchedNext => EncodeFollowsTable.rbRdSchedNext
  | .rbRdReserved idx => EncodeFollowsTable.rbRdReserved idx
  | .rbWrReserved idx d => EncodeFollowsTable.rbWrReserved idx d
  | .fbWrCounter d => EncodeFollowsTable.fbWrCounter d
  | .fbRdCounter => EncodeFollowsTable.fbRdCounter
  | .fbWrCapTime d => EncodeFollowsTable.fbWrCapTime d
  | .fbRdCapTime => EncodeFollowsTable.fbRdCapTime
  | .fbWrCapData d => EncodeFollowsTable.fbWrCapData d
  | .fbRdCapData => EncodeFollowsTable.fbRdCapData
  | .fbWrCapNext d => EncodeFollowsTable.fbWrCapNext d
  | .fbRdCapNext => EncodeFollowsTable.fbRdCapNext
  | .fbWrSchedTime d => EncodeFollowsTable.fbWrSchedTime d
  | .fbRdSchedTime => EncodeFollowsTable.fbRdSchedTime
  | .fbWrSchedData d => EncodeFollowsTable.fbWrSchedData d
  | .fbRdSchedData => EncodeFollowsTable.fbRdSchedData
  | .fbWrSchedNext d => EncodeFollowsTable.fbWrSchedNext d
  | .fbRdSchedNext => EncodeFollowsTable.fbRdSchedNext
  | .fbRdReserved adr => EncodeFollowsTable.fbRdReserved adr
  | .fbWrReserved adr d => EncodeFollowsTable.fbWrReserved adr d

/-- Settles O3: a key is that of the operation decoded from it, which is well-formed, and the key of a
well-formed operation looks up its own row. -/
theorem decoderFollowsOpcodeTable : Obligations.DecoderFollowsOpcodeTable := by
  refine ⟨rfl, fun key d => ?_, fun key d => ?_⟩
  · have hrow := encodeFollowsOpcodeTable (decodeRb key d) (decodeRb_wellFormed key d)
    rwa [decodeRb_view, encode_decodeRb, requestKey_rbRequest] at hrow
  · have hrow := encodeFollowsOpcodeTable (decodeFb key d) (decodeFb_wellFormed key d)
    rwa [decodeFb_view, encode_decodeFb, requestKey_fbRequest] at hrow

/-! ## From the ports to the meaning -/

section Ports

variable {s : State} {i : Instr}

/-- A register-bank operation at the inputs is the one its tick means (R255). -/
theorem presentedInstr_of_rb (h : rbInstrOf (currentInput s).rbOp = some i) :
    presentedInstr s = some i := by
  rw [presentedInstr, h, Option.some_or]

/-- Without a register-bank operation the tick means the fast-bus request (log entry 10). -/
theorem presentedInstr_of_fb (hop : (currentInput s).rbOp = .none) :
    presentedInstr s = fbInstrOf (currentInput s) := by
  rw [presentedInstr, hop]
  rfl

/-- A step is the meaning of the operation presented. -/
theorem step_of_presentedInstr (h : presentedInstr s = some i) : step s = exec i s := by
  rw [step, h]

end Ports

/-- The bytes of the fast-bus request at the ports are those of its key (R101). -/
theorem decode_fbPort (we : Bool) (adr : BitVec 8) (d : Word) :
    decode .fastBus (adr :: (BitVec.ofBool we).setWidth 8 :: bytesOfWord d) =
      .ok (decodeFb (BitVec.ofBool we ++ adr) d) := by
  have hadr : (BitVec.ofBool we ++ adr).extractLsb' 0 8 = adr := by
    cases we <;> revert adr <;> decide
  have hwe : (BitVec.ofBool we ++ adr).extractLsb' 8 1 = BitVec.ofBool we := by
    cases we <;> revert adr <;> decide
  have hdec := decode_fbRequest (BitVec.ofBool we ++ adr) d
  rwa [hadr, hwe] at hdec

/-- Settles O6: the bytes of a request at the ports are decoded to the operation presented there. -/
theorem stepRunsDecodedOperation : Obligations.StepRunsDecodedOperation := by
  refine ⟨fun s idx d i hop hdec => ?_, fun s idx d i hop hdec => ?_, fun s i hop hreq hdec => ?_,
    fun s hop hreq => ?_⟩
  · obtain rfl := Except.ok.inj ((decode_rbRequest _ d).symm.trans hdec)
    exact ⟨decodeRb_wellFormed _ d, step_of_presentedInstr (presentedInstr_of_rb (by rw [hop]; rfl))⟩
  · obtain rfl := Except.ok.inj ((decode_rbRequest _ d).symm.trans hdec)
    refine ⟨decodeRb_wellFormed _ d, step_of_presentedInstr (presentedInstr_of_rb ?_)⟩
    rw [hop, rbInstrOf, decodeRb_read, decodeRb_read]
  · obtain rfl := Except.ok.inj ((decode_fbPort _ _ _).symm.trans hdec)
    refine ⟨decodeFb_wellFormed _ _, step_of_presentedInstr ((presentedInstr_of_fb hop).trans ?_)⟩
    rw [fbInstrOf, if_pos hreq]
  · have hnone : presentedInstr s = none := by rw [presentedInstr_of_fb hop, fbInstrOf, hreq]; rfl
    rw [step, hnone]

/-! ## The loader -/

/-- Four bytes of a number from byte `n` on make the data word of the number shifted by `n` bytes. -/
theorem wordOfBytes_byteAt (v n : Nat) :
    wordOfBytes (byteAt v n) (byteAt v (n + 1)) (byteAt v (n + 2)) (byteAt v (n + 3)) =
      BitVec.ofNat 32 (v / 256 ^ n) := by
  have hbyte : ∀ m i, i < 8 → (byteAt v (n + m)).getLsbD i = (v / 256 ^ n).testBit (8 * m + i) := by
    intro m i hi
    have hpow : 256 ^ n = 2 ^ (8 * n) := by rw [show 256 = 2 ^ 8 from rfl, Nat.pow_mul]
    rw [byteAt, BitVec.getLsbD_ofNat, decide_eq_true hi, Bool.true_and, Nat.testBit_shiftRight, hpow,
      Nat.testBit_div_two_pow]
    congr 1
    omega
  apply BitVec.eq_of_getLsbD_eq
  intro i hi
  rw [wordOfBytes_getLsbD, BitVec.getLsbD_ofNat, decide_eq_true hi, Bool.true_and]
  split_ifs with h8 h16 h24
  · rw [← Nat.add_zero n, hbyte 0 i h8]; congr 1; omega
  · rw [hbyte 1 _ (by omega)]; congr 1; omega
  · rw [hbyte 2 _ (by omega)]; congr 1; omega
  · rw [hbyte 3 _ (by omega)]; congr 1; omega

theorem byteAt_zero_toNat (v : Nat) : (byteAt v 0).toNat = v % 256 := by
  rw [byteAt, BitVec.toNat_ofNat, Nat.mul_zero, Nat.shiftRight_zero]

/-- The first two bytes of a request number are its last 16 bits. -/
theorem byteAt_one_append_zero_toNat (v : Nat) : (byteAt v 1 ++ byteAt v 0).toNat = v % 65536 := by
  rw [toNat_append_bytes, byteAt_zero_toNat, byteAt, BitVec.toNat_ofNat, Nat.shiftRight_eq_div_pow]
  omega

/-- The loader presents the register-bank operation of the request's bytes (log entry 4). -/
theorem rbInstrOf_tableRbOp {v : Nat} {i : Instr}
    (h : decode .regBank [byteAt v 0, byteAt v 1, byteAt v 2, byteAt v 3, byteAt v 4] = .ok i) :
    rbInstrOf (tableRbOp v) = some i := by
  simp only [decode, byteAt_zero_toNat, wordOfBytes_byteAt v 1, Nat.pow_one] at h
  split_ifs at h with hk
  obtain rfl := Except.ok.inj h
  have hkey : ∀ b : Bool, (decide (v % 64 < 32) = !b) →
      (byteAt v 0).setWidth 6 = BitVec.ofBool b ++ BitVec.ofNat 5 v := by
    intro b hb
    apply BitVec.eq_of_toNat_eq
    rw [BitVec.toNat_setWidth, byteAt_zero_toNat, BitVec.toNat_append,
      ← Nat.shiftLeft_add_eq_or_of_lt (BitVec.isLt _), Nat.shiftLeft_eq, BitVec.toNat_ofNat]
    cases b <;> simp at hb ⊢ <;> omega
  rw [tableRbOp, if_pos hk]
  split_ifs with hwe
  · rw [hkey false (by simpa using hwe), rbInstrOf]
    exact congrArg some ((decodeRb_read _ _).trans (decodeRb_read _ _).symm)
  · rw [hkey true (by simpa using hwe)]
    rfl

/-- The loader presents the fast-bus request of the request's bytes (log entry 4). -/
theorem fbInstrOf_tableRequest {v : Nat} {i : Instr} {inp : TickInput}
    (hreq : inp.fbReq = decide (v % 65536 < 512)) (hwe : inp.fbWe = decide (256 ≤ v % 512))
    (hadr : inp.fbAdr = v % 256) (hdata : inp.fbWdata = BitVec.ofNat 32 (v / 65536))
    (h : decode .fastBus [byteAt v 0, byteAt v 1, byteAt v 2, byteAt v 3, byteAt v 4, byteAt v 5] =
      .ok i) : fbInstrOf inp = some i := by
  simp only [decode, byteAt_one_append_zero_toNat, wordOfBytes_byteAt v 2] at h
  split_ifs at h with hk
  obtain rfl := Except.ok.inj h
  have hkey : (byteAt v 1 ++ byteAt v 0).setWidth 9 =
      BitVec.ofBool (decide (256 ≤ v % 512)) ++ lowByte (v % 256) := by
    apply BitVec.eq_of_toNat_eq
    rw [BitVec.toNat_setWidth, byteAt_one_append_zero_toNat, BitVec.toNat_append,
      ← Nat.shiftLeft_add_eq_or_of_lt (BitVec.isLt _), Nat.shiftLeft_eq, lowByte, BitVec.toNat_ofNat]
    by_cases hw : 256 ≤ v % 512 <;> simp [hw] <;> omega
  rw [fbInstrOf, hreq, if_pos (decide_eq_true hk), hwe, hadr, hdata, hkey]
  rfl

theorem decode_of_decodeTableWord {nbits w : Nat} {i : Instr} (h : decodeTableWord nbits w = some i) :
    decode (tableRequest nbits w).1 (tableRequest nbits w).2 = .ok i := by
  unfold decodeTableWord at h
  split at h
  next hdec => rw [hdec, Option.some.inj h]
  next => cases h

section Loader

variable {s : State} {nbits w : Nat} {i : Instr}

/-- A placed request of at most eight bits is a register-bank operation, the fast bus idle (log entry 4). -/
theorem withFetchWord_of_rb (hbits : nbits ≤ 8) (h : decodeTableWord nbits w = some i) :
    rbInstrOf (currentInput (s.withFetchWord nbits w)).rbOp = some i ∧
      (currentInput (s.withFetchWord nbits w)).rst = false ∧
      (currentInput (s.withFetchWord nbits w)).fbReq = false := by
  have hdec := decode_of_decodeTableWord h
  rw [tableRequest, if_pos hbits] at hdec
  rw [State.withFetchWord, placeRequest_currentInput, fetchInput, if_pos hbits]
  exact ⟨rbInstrOf_tableRbOp hdec, rfl, rfl⟩

/-- A placed request of more than eight bits is a fast-bus request, the register bank idle (log entry 4). -/
theorem withFetchWord_of_fb (hbits : ¬ nbits ≤ 8) (h : decodeTableWord nbits w = some i) :
    fbInstrOf (currentInput (s.withFetchWord nbits w)) = some i ∧
      (currentInput (s.withFetchWord nbits w)).rst = false ∧
      (currentInput (s.withFetchWord nbits w)).rbOp = .none ∧
      (s.withFetchWord nbits w).fbAck = false := by
  have hdec := decode_of_decodeTableWord h
  rw [tableRequest, if_neg hbits] at hdec
  rw [State.withFetchWord, placeRequest_currentInput, fetchInput, if_neg hbits]
  exact ⟨fbInstrOf_tableRequest rfl rfl rfl rfl hdec, rfl, rfl, if_neg hbits⟩

end Loader

/-- Settles O8: the operation placed is that of its own view, of which it is presented; the other view stays
idle. -/
theorem placedRequestRuns : Obligations.PlacedRequestRuns := by
  intro s nbits w i h
  by_cases hbits : nbits ≤ 8
  · obtain ⟨hinstr, hrst, hreq⟩ := withFetchWord_of_rb (s := s) hbits h
    have hpres := presentedInstr_of_rb hinstr
    refine ⟨hpres, step_of_presentedInstr hpres, hrst, fun _ => hreq, fun hview => ?_⟩
    cases hview.symm.trans (rbInstrOf_view hinstr)
  · obtain ⟨hinstr, hrst, hop, hack⟩ := withFetchWord_of_fb (s := s) hbits h
    have hpres := (presentedInstr_of_fb hop).trans hinstr
    refine ⟨hpres, step_of_presentedInstr hpres, hrst, fun hview => ?_, fun _ => ⟨hop, hack⟩⟩
    cases hview.symm.trans (fbInstrOf_view hinstr)

/-! ## At work -/

/-- O1 at the greatest reserved address. -/
theorem decodeOfEncode_witness :
    decode .fastBus (encode (.fbWrReserved 0xFF#8 0x12345678#32)).2 =
      .ok (.fbWrReserved 0xFF#8 0x12345678#32) :=
  decodeOfEncode (.fbWrReserved 0xFF#8 0x12345678#32) rfl

/-- O2 at a reserved read with its data byte set and at the write of the same index: both keys come back, the
data of the write alone. -/
theorem encodeOfDecode_witness :
    requestKey (encode (.rbRdReserved 20#5)) = 0x14 ∧
      encode (.rbWrReserved 20#5 1#32) = (.regBank, [0x34#8, 1#8, 0#8, 0#8, 0#8]) := by
  obtain ⟨-, -, -, hread, -⟩ :=
    encodeOfDecode .regBank [0x14#8, 1#8, 0#8, 0#8, 0#8] (.rbRdReserved 20#5) rfl
  obtain ⟨-, -, -, -, hwrite⟩ :=
    encodeOfDecode .regBank [0x34#8, 1#8, 0#8, 0#8, 0#8] (.rbWrReserved 20#5 1#32) rfl
  exact ⟨hread, hwrite (.inl ⟨rfl, by decide⟩)⟩

/-- O6 at the bytes of a fast-bus write of `SCHED_TIME`. -/
theorem stepRunsDecodedOperation_witness :
    step (besideFastBus true 4 322#32) = exec (.fbWrSchedTime 322#32) (besideFastBus true 4 322#32) := by
  obtain ⟨-, -, hfb, -⟩ := stepRunsDecodedOperation
  exact (hfb (besideFastBus true 4 322#32) (.fbWrSchedTime 322#32) rfl rfl rfl).2

/-- O8 at a fast-bus write of `SCHED_TIME` placed over a tick that presents another request. -/
theorem placedRequestRuns_witness :
    step ((besideFastBus false 1 0#32).withFetchWord 48 0x1420104) =
      exec (.fbWrSchedTime 322#32) ((besideFastBus false 1 0#32).withFetchWord 48 0x1420104) := by
  obtain ⟨-, hstep, -⟩ :=
    placedRequestRuns (besideFastBus false 1 0#32) 48 0x1420104 (.fbWrSchedTime 322#32) (by decide)
  exact hstep

end Sys2Proof.Proofs
end

section
/-! Reset, acknowledge and hazard (spec/70_reset_and_hazards.md, spec/48_host_fastbus.md section 1): what a tick
gives before the engine has its turn, and what stops it. -/

namespace Sys2Proof.Proofs

open Sys2Proof.Machine Sys2Proof.Config Sys2Proof.Safety Sys2Proof.Laws

/-! ## The two meanings of one tick -/

theorem regBankPort_of_rbInstrOf {s : State} {i : Instr} (h : rbInstrOf (currentInput s).rbOp = some i) :
    regBankPort s = some (present i s) := by
  rw [regBankPort, h, Option.map_some]

theorem fastBusPort_of_fbInstrOf {s : State} {i : Instr} (h : fbInstrOf (currentInput s) = some i) :
    fastBusPort s = some (present i s) := by
  rw [fastBusPort, h, Option.map_some]

/-- Settles O7: the meanings of both operations, and the step, are the tick with what the two ports present. -/
theorem eitherViewGivesTheSameTick : Obligations.EitherViewGivesTheSameTick := by
  intro s i j hi hj
  have hrb : exec i s = step s := by
    rw [exec_regBank (rbInstrOf_view hi), ← regBankPort_of_rbInstrOf hi, step_eq]
  have hfb : exec j s = step s := by
    rw [exec_fastBus (fbInstrOf_view hj), ← fastBusPort_of_fbInstrOf hj, step_eq]
  exact ⟨hrb.trans hfb.symm, hrb.symm⟩

/-- A step without reset that has a next state is the transition with what both ports contribute (R331). -/
theorem eq_engineTick_of_step {s t : State} (hrst : (currentInput s).rst = false)
    (hstep : step s = .next t) :
    t = engineTick s (portEffect (regBankPort s)) (portEffect (accepted s (fastBusPort s)))
      (accepted s (fastBusPort s)).isSome := by
  rw [step_eq] at hstep
  rcases next_cases hstep with ⟨hreset, -⟩ | ⟨-, ht⟩
  · cases hrst.symm.trans hreset
  · exact ht

/-! ## Reset -/

/-- In a reset tick every operation is the reset (R390). -/
theorem exec_of_reset {s : State} (hrst : (currentInput s).rst = true) (i : Instr) :
    ∃ op, exec i s = .next (resetTick s op) := by
  cases hview : i.view with
  | regBank => exact ⟨_, (exec_regBank hview s).trans (runTick_reset _ _ hrst)⟩
  | fastBus => exact ⟨_, (exec_fastBus hview s).trans (runTick_reset _ _ hrst)⟩

/-- Settles O11: step and operation alike are the reset tick, which keeps the construction and takes the inputs
of the tick away. -/
theorem resetTickGivesResetState : Obligations.ResetTickGivesResetState := by
  intro s hrst
  refine ⟨⟨_, step_of_reset hrst, rfl⟩, fun i => ?_⟩
  obtain ⟨op, hexec⟩ := exec_of_reset hrst i
  exact ⟨_, hexec, rfl⟩

/-- Settles O12: the reset tick drives the outputs of `S_t`, but for the output vectors. -/
theorem resetTickOutputs : Obligations.ResetTickOutputs := by
  intro s t hv hrst hstep
  obtain rfl := Host.Outcome.next.inj ((step_of_reset hrst).symm.trans hstep)
  obtain ⟨h0, h1, h2, h3, h4, h5, -⟩ := conditionLines_getLsbD s (currentInput s) false
  refine ⟨rfl, rfl, rfl, outputDisable_getLsbD (nch_le_of_valid hv), ?_, ?_, h2, h3, h4, h5⟩
  · exact (Bool.eq_iff_iff.mp h0).trans (by simp [readable])
  · exact (Bool.eq_iff_iff.mp h1).trans (by simp [writable])

/-! ## The first tick from reset -/

section FirstTick

variable {p : Params} {inputs : List TickInput}

/-- The reset state with the inputs of the ticks to come. -/
def resetWith (p : Params) (inputs : List TickInput) : State :=
  { State.resetOf p with inputs := inputs }

/-- A block in its reset state shows schedule-writable alone (R391). -/
theorem conditionLines_resetWith (hv : p.Valid) (inp : TickInput) (zero : Bool) :
    conditionLines (resetWith p inputs) inp zero = 0b0000010#7 := by
  obtain ⟨-, -, -, -, -, hdepth, -⟩ := hv
  have hwrap : wrapPulse (resetWith p inputs) inp zero = false := rfl
  have hroom : writable (resetWith p inputs).params.schDepth (resetWith p inputs).schq = true :=
    decide_eq_true hdepth
  rw [conditionLines, hwrap, hroom]
  simp [resetWith, readable]

/-- The lines of a block in its reset state stay low (R391). -/
theorem lane_nextOutvec_resetWith (hv : p.Valid) (c : Nat) :
    lane (nextOutvec (resetWith p inputs)) c = 0#8 := by
  have hzero : pulse p.variant (lane (Vector.replicate 32 0#8) c) false false 0#3 = 0#8 := by
    rw [lane_replicate_zero]
    cases p.variant <;> rfl
  rw [lane_nextOutvec (nch_le_of_valid hv)]
  exact (ite_congr rfl (fun _ => hzero) fun _ => rfl).trans (ite_self _)

/-- The first tick is a reset tick or a transition, and both show the lines and enables of the reset state
(R391, R392). -/
theorem outputs_of_first_tick (hv : p.Valid) {t : State} (hstep : step (resetWith p inputs) = .next t) :
    t.out.ev = 0b0000010#7 ∧ (∀ c, lane t.out.outVec c = 0#8) ∧
      ∀ c, c < p.nch → t.out.oeN.getLsbD c = true := by
  have hoe : ∀ c, c < p.nch → (outputDisable (resetWith p inputs)).getLsbD c = true := by
    intro c hc
    rw [outputDisable_getLsbD (nch_le_of_valid hv)]
    exact Bool.and_eq_true_iff.mpr ⟨decide_eq_true hc, by simp [resetWith]⟩
  rw [step_eq] at hstep
  rcases next_cases hstep with ⟨-, rfl⟩ | ⟨-, rfl⟩
  · exact ⟨conditionLines_resetWith hv _ _, lane_replicate_zero, hoe⟩
  · exact ⟨conditionLines_resetWith hv _ _, lane_nextOutvec_resetWith hv, hoe⟩

end FirstTick

/-- Settles O13: the reset state is written with these values, and the first tick shows them. -/
theorem resetStateIsAsStated : Obligations.ResetStateIsAsStated := by
  rintro p hv inputs s rfl
  exact ⟨rfl, rfl, rfl, rfl, rfl, rfl, rfl, rfl, lane_replicate_zero, rfl, rfl, rfl, rfl, rfl, rfl, rfl,
    rfl, rfl, rfl, fun t hstep => outputs_of_first_tick hv hstep⟩

/-! ## Acknowledge -/

/-- Settles O18: the acknowledge register holds the acceptance of the tick, which asks for a request outside an
acknowledge tick. -/
theorem acknowledgeLastsOneTick : Obligations.AcknowledgeLastsOneTick := by
  intro s t hstep
  obtain ⟨-, -, -, -, haccept, -⟩ := fastBusPort_effect s
  rw [step_eq] at hstep
  rcases next_cases hstep with ⟨hreset, rfl⟩ | ⟨hrst, rfl⟩
  · exact ⟨fun _ => rfl, fun _ hrst => absurd hreset (by simp [hrst])⟩
  · rw [engineTick_fbAck, haccept, fbAccepts]
    exact ⟨fun hack => by simp [hack], fun hack _ => by simp [hack]⟩

/-! ## Hazard -/

section Race

variable {s : State} {n m : Nat}

theorem regBankPort_of_rbReads (h : rbReads (currentInput s) n = true) :
    regBankPort s = some (present (decodeRbRead (BitVec.ofNat 5 n)) s) := by
  unfold rbReads at h
  split at h
  next idx hop =>
    obtain rfl : idx.toNat = n := beq_iff_eq.mp h
    rw [regBankPort, hop, rbInstrOf, decodeRb_read, Option.map_some, BitVec.ofNat_toNat,
      BitVec.setWidth_eq]
  all_goals cases h

theorem regBankPort_of_rbWrites (h : rbWrites (currentInput s) n = true) :
    ∃ d, regBankPort s = some (present (decodeRbWrite (BitVec.ofNat 5 n) d) s) := by
  unfold rbWrites at h
  split at h
  next idx d hop =>
    obtain rfl : idx.toNat = n := beq_iff_eq.mp h
    refine ⟨d, ?_⟩
    rw [regBankPort, hop, rbInstrOf, decodeRb_write, Option.map_some, BitVec.ofNat_toNat,
      BitVec.setWidth_eq]
  all_goals cases h

/-- An accepted request is the one at the inputs (R300). -/
theorem accepted_of_fbAccepts (h : fbAccepts s (currentInput s) = true) :
    accepted s (fastBusPort s) = some (present (decodeFb (BitVec.ofBool (currentInput s).fbWe ++
      lowByte (currentInput s).fbAdr) (currentInput s).fbWdata) s) := by
  simp only [fbAccepts, Bool.and_eq_true, Bool.not_eq_true'] at h
  obtain ⟨hreq, hack⟩ := h
  simp [accepted, fastBusPort, fbInstrOf, hreq, hack]

theorem lowByte_eq_ofNat (adr : Nat) : lowByte adr = BitVec.ofNat 8 (adr % 256) := by
  apply BitVec.eq_of_toNat_eq
  simp [lowByte]

theorem accepted_of_fbReads (h : fbReads s (currentInput s) n = true) :
    accepted s (fastBusPort s) = some (present (decodeFbRead (BitVec.ofNat 8 n)) s) := by
  simp only [fbReads, Bool.and_eq_true, Bool.not_eq_true', beq_iff_eq] at h
  obtain ⟨⟨hacc, hwe⟩, hadr⟩ := h
  rw [accepted_of_fbAccepts hacc, hwe, decodeFb_port, lowByte_eq_ofNat, hadr]
  rfl

theorem accepted_of_fbWrites (h : fbWrites s (currentInput s) n = true) :
    ∃ d, accepted s (fastBusPort s) = some (present (decodeFbWrite (BitVec.ofNat 8 n) d) s) := by
  simp only [fbWrites, Bool.and_eq_true, beq_iff_eq] at h
  obtain ⟨⟨hacc, hwe⟩, hadr⟩ := h
  refine ⟨(currentInput s).fbWdata, ?_⟩
  rw [accepted_of_fbAccepts hacc, hwe, decodeFb_port, lowByte_eq_ofNat, hadr]
  rfl

/-- The step stops in a race between what the two ports present (R405, R407). -/
theorem step_fault_of_collide (hrst : (currentInput s).rst = false) {i j : Instr}
    (hrb : regBankPort s = some (present i s)) (hfb : accepted s (fastBusPort s) = some (present j s))
    (hcol : collide i j = true) : ∃ a b, step s = .fault (.dualViewRace a b) := by
  rw [step_eq, hrb]
  exact ⟨i, j, runTick_fault hrst hfb hcol⟩

theorem step_fault_of_write_read (hrst : (currentInput s).rst = false)
    (hrb : rbWrites (currentInput s) n = true) (hfb : fbReads s (currentInput s) m = true)
    (hcol : ∀ d, collide (decodeRbWrite (BitVec.ofNat 5 n) d) (decodeFbRead (BitVec.ofNat 8 m)) = true) :
    ∃ a b, step s = .fault (.dualViewRace a b) := by
  obtain ⟨d, hport⟩ := regBankPort_of_rbWrites hrb
  exact step_fault_of_collide hrst hport (accepted_of_fbReads hfb) (hcol d)

theorem step_fault_of_read_write (hrst : (currentInput s).rst = false)
    (hrb : rbReads (currentInput s) n = true) (hfb : fbWrites s (currentInput s) m = true)
    (hcol : ∀ d, collide (decodeRbRead (BitVec.ofNat 5 n)) (decodeFbWrite (BitVec.ofNat 8 m) d) = true) :
    ∃ a b, step s = .fault (.dualViewRace a b) := by
  obtain ⟨d, hport⟩ := accepted_of_fbWrites hfb
  exact step_fault_of_collide hrst (regBankPort_of_rbReads hrb) hport (hcol d)

theorem step_fault_of_write_write (hrst : (currentInput s).rst = false)
    (hrb : rbWrites (currentInput s) n = true) (hfb : fbWrites s (currentInput s) m = true)
    (hcol : ∀ d e, collide (decodeRbWrite (BitVec.ofNat 5 n) d)
      (decodeFbWrite (BitVec.ofNat 8 m) e) = true) :
    ∃ a b, step s = .fault (.dualViewRace a b) := by
  obtain ⟨d, hrbPort⟩ := regBankPort_of_rbWrites hrb
  obtain ⟨e, hfbPort⟩ := accepted_of_fbWrites hfb
  exact step_fault_of_collide hrst hrbPort hfbPort (hcol d e)

/-- Every pair of R406 stops the tick. -/
theorem step_fault_of_hazardTick (hrst : (currentInput s).rst = false)
    (h : HazardTick s (currentInput s)) : ∃ a b, step s = .fault (.dualViewRace a b) := by
  rcases h with ⟨hw, hr⟩ | ⟨hw, hr | hr | hw'⟩ | ⟨hr | hr, hw⟩ | ⟨hw, hr | hw' | hw'⟩ |
    ⟨hr | hw', hw⟩ | ⟨hw, hr | hw' | hw'⟩ | ⟨hr | hw', hw⟩ | ⟨hw, hw'⟩
  · exact step_fault_of_write_read hrst hw hr fun _ => rfl
  · exact step_fault_of_write_read hrst hw hr fun _ => rfl
  · exact step_fault_of_write_read hrst hw hr fun _ => rfl
  · exact step_fault_of_write_write hrst hw hw' fun _ _ => rfl
  · exact step_fault_of_read_write hrst hr hw fun _ => rfl
  · exact step_fault_of_read_write hrst hr hw fun _ => rfl
  · exact step_fault_of_write_read hrst hw hr fun _ => rfl
  · exact step_fault_of_write_write hrst hw hw' fun _ _ => rfl
  · exact step_fault_of_write_write hrst hw hw' fun _ _ => rfl
  · exact step_fault_of_read_write hrst hr hw fun _ => rfl
  · exact step_fault_of_write_write hrst hw' hw fun _ _ => rfl
  · exact step_fault_of_write_read hrst hw hr fun _ => rfl
  · exact step_fault_of_write_write hrst hw hw' fun _ _ => rfl
  · exact step_fault_of_write_write hrst hw hw' fun _ _ => rfl
  · exact step_fault_of_read_write hrst hr hw fun _ => rfl
  · exact step_fault_of_write_write hrst hw' hw fun _ _ => rfl
  · exact step_fault_of_write_write hrst hw hw' fun _ _ => rfl

end Race

/-- Settles O14: outside the pairs of R406 the step is the transition, and each of the pairs collides. -/
theorem hazardPairsStopTheTick : Obligations.HazardPairsStopTheTick := by
  intro s hrst
  refine ⟨fun ⟨a, b, hfault⟩ => ?_, step_fault_of_hazardTick hrst⟩
  by_contra hno
  cases (step_of_not_hazardTick hrst hno).symm.trans hfault

/-! ## What stops an operation -/

section Outcomes

variable {s : State} {i j : Instr}

/-- The race an operation can stop by (R405, R407). -/
def StopsByRace (s : State) (i : Instr) : Prop :=
  (currentInput s).rst = false ∧ s.fbAck = false ∧ ∃ a b, exec i s = .fault (.dualViewRace a b) ∧
    (i = a ∨ i = b) ∧ a.view = .regBank ∧ b.view = .fastBus ∧ collide a b = true

theorem accepted_eq_some {fb : Option Presented} {b : Presented} (h : accepted s fb = some b) :
    s.fbAck = false ∧ fb = some b := by
  unfold accepted at h
  split_ifs at h with hack
  exact ⟨Bool.eq_false_of_not_eq_true hack, h⟩

theorem regBankPort_view {a : Presented} (h : regBankPort s = some a) : a.instr.view = .regBank := by
  obtain ⟨i, hi, rfl⟩ := Option.map_eq_some_iff.mp h
  exact rbInstrOf_view hi

theorem fastBusPort_view {b : Presented} (h : fastBusPort s = some b) : b.instr.view = .fastBus := by
  obtain ⟨i, hi, rfl⟩ := Option.map_eq_some_iff.mp h
  exact fbInstrOf_view hi

/-- An operation has a next state or stops by a race. -/
theorem exec_next_or_race (i : Instr) (s : State) : (∃ t, exec i s = .next t) ∨ StopsByRace s i := by
  cases hview : i.view with
  | regBank =>
    rw [StopsByRace, exec_regBank hview]
    rcases runTick_cases (some (present i s)) (fastBusPort s) s with
      ⟨-, hnext⟩ | ⟨hrst, a, b, ha, hb, hcol, hfault⟩ | ⟨-, -, hnext⟩
    · exact .inl ⟨_, hnext⟩
    · obtain ⟨hack, hport⟩ := accepted_eq_some hb
      cases ha
      exact .inr ⟨hrst, hack, _, _, hfault, .inl rfl, hview, fastBusPort_view hport, hcol⟩
    · exact .inl ⟨_, hnext⟩
  | fastBus =>
    rw [StopsByRace, exec_fastBus hview]
    rcases runTick_cases (regBankPort s) (some (present i s)) s with
      ⟨-, hnext⟩ | ⟨hrst, a, b, ha, hb, hcol, hfault⟩ | ⟨-, -, hnext⟩
    · exact .inl ⟨_, hnext⟩
    · obtain ⟨hack, hport⟩ := accepted_eq_some hb
      cases hport
      exact .inr ⟨hrst, hack, _, _, hfault, .inr rfl, regBankPort_view ha, hview, hcol⟩
    · exact .inl ⟨_, hnext⟩

end Outcomes

/-- Settles O15: of the outcomes of a tick only the fault stops it, and it names what both views present; a
colliding operation of the other view is presented at its port. -/
theorem onlyARaceStops : Obligations.OnlyARaceStops := by
  intro i s
  refine ⟨exec_next_or_race i s, fun j hrst hack hview hj hcol => ?_, fun j hrst hack hview hj hcol => ?_⟩
  · have hacc : accepted s (fastBusPort s) = some (present j s) := by
      rw [accepted, if_neg (by simp [hack]), fastBusPort_of_fbInstrOf hj]
    rw [exec_regBank hview]
    exact runTick_fault hrst hacc hcol
  · have hacc : accepted s (some (present i s)) = some (present i s) := by
      rw [accepted, if_neg (by simp [hack])]
    rw [exec_fastBus hview, regBankPort_of_rbInstrOf hj]
    exact runTick_fault hrst hacc hcol

/-! ## At work -/

/-- O7 at a register-bank pop beside a fast-bus write of `SCHED_TIME`. -/
theorem eitherViewGivesTheSameTick_witness :
    exec (.rbWrCapNext 0#32) (besideScheduleWrite false (.write 12#5 0#32)) =
      exec (.fbWrSchedTime 322#32) (besideScheduleWrite false (.write 12#5 0#32)) :=
  (eitherViewGivesTheSameTick (besideScheduleWrite false (.write 12#5 0#32)) _ _ rfl rfl).1

/-- O11 at a fast-bus write in a reset tick: the register, the counter and both queues are at reset. -/
theorem resetTickGivesResetState_witness :
    ∃ t, exec (.fbWrSchedTime 322#32) (besideScheduleWrite true .none) = .next t ∧
      t.schedTime = 0#32 ∧ t.counter = 0#32 ∧ t.capq = [] ∧ t.schq = [] := by
  obtain ⟨-, hexec⟩ := resetTickGivesResetState (besideScheduleWrite true .none) (by decide)
  obtain ⟨t, hnext, ht⟩ := hexec (.fbWrSchedTime 322#32)
  exact ⟨t, hnext, congrArg State.schedTime ht, congrArg State.counter ht, congrArg State.capq ht,
    congrArg State.schq ht⟩

/-- O12 at a block with records in both queues: its lines still show them. -/
theorem resetTickOutputs_witness :
    ∃ t, step (besideScheduleWrite true .none) = .next t ∧ t.out.ev.getLsbD 0 = true ∧
      t.out.ev.getLsbD 1 = true ∧ t.out.outVec = Vector.replicate 32 0#8 := by
  refine ⟨_, rfl, ?_⟩
  obtain ⟨hvec, -, -, -, hreadable, hwritable, -⟩ :=
    resetTickOutputs (besideScheduleWrite true .none) _ (by decide) (by decide) rfl
  exact ⟨hreadable.mpr (by decide), hwritable.mpr (by decide), hvec⟩

/-- O13 at the first tick of the small block, a line high and a fast-bus write presented. -/
theorem resetStateIsAsStated_witness :
    ∃ t, step (resetWith hi8 (besideFastBus true 4 322#32).inputs) = .next t ∧
      t.out.ev = 0b0000010#7 ∧ lane t.out.outVec 2 = 0#8 ∧ t.out.oeN.getLsbD 7 = true := by
  refine ⟨_, rfl, ?_⟩
  obtain ⟨-, -, -, -, -, -, -, -, -, -, -, -, -, -, -, -, -, -, -, hfirst⟩ :=
    resetStateIsAsStated hi8 (by decide) (besideFastBus true 4 322#32).inputs _ rfl
  obtain ⟨hev, hvec, hoe⟩ := hfirst _ rfl
  exact ⟨hev, hvec 2, hoe 7 (by decide)⟩

/-- O14 at two writes of `SCHED_TIME`, and at one of them beside a pop. -/
theorem hazardPairsStopTheTick_witness :
    (∃ a b, step (besideScheduleWrite false (.write 13#5 5#32)) = .fault (.dualViewRace a b)) ∧
      ¬ ∃ a b, step (besideScheduleWrite false (.write 12#5 0#32)) = .fault (.dualViewRace a b) :=
  ⟨(hazardPairsStopTheTick _ (by decide)).mpr (by decide),
    (hazardPairsStopTheTick _ (by decide)).not.mpr (by decide)⟩

/-- O15 at the fast-bus write of these two. -/
theorem onlyARaceStops_witness :
    exec (.fbWrSchedTime 322#32) (besideScheduleWrite false (.write 13#5 5#32)) =
      .fault (.dualViewRace (.rbWrSchedTime 5#32) (.fbWrSchedTime 322#32)) := by
  obtain ⟨-, -, hrace⟩ :=
    onlyARaceStops (.fbWrSchedTime 322#32) (besideScheduleWrite false (.write 13#5 5#32))
  exact hrace _ (by decide) rfl rfl rfl rfl

/-- O18 at an accepted request and at a request of an acknowledge tick. -/
theorem acknowledgeLastsOneTick_witness :
    (∃ t, step (besideFastBus true 4 322#32) = .next t ∧ t.fbAck = true) ∧
      ∃ t, step acknowledgeTick = .next t ∧ t.fbAck = false :=
  ⟨⟨_, rfl, (acknowledgeLastsOneTick (besideFastBus true 4 322#32) _ rfl).2 rfl rfl⟩,
    _, rfl, (acknowledgeLastsOneTick acknowledgeTick _ rfl).1 rfl⟩

end Sys2Proof.Proofs
end

section
/-! The operations of both views that touch no shared resource: reads of strobes and of storage registers,
reserved numbers, and the request of an acknowledge tick (spec/47_host_regbank.md, spec/48_host_fastbus.md). -/

namespace Sys2Proof.Proofs

open Sys2Proof.Machine Sys2Proof.Safety Sys2Proof.Laws

/-! ## The register-bank view -/

/-- Settles O27: a read of a strobe register touches no shared resource and contributes the value 0. -/
theorem rbStrobeReadsComplete : Obligations.RbStrobeReadsComplete := by
  intro s hv hrst
  refine ⟨⟨rfl, ?_⟩, ⟨rfl, ?_⟩, rfl, ?_⟩ <;>
    exact exec_rbTick hv hrst rfl (.of_own rfl rfl)

/-- Settles O28: a reserved operation touches no shared resource, and its key is its write bit over its
index. -/
theorem rbReservedCompletes : Obligations.RbReservedCompletes := by
  intro s idx d hv hrst _
  have hkey : ∀ idx : BitVec 5,
      (0#1 ++ idx).toNat = idx.toNat ∧ (1#1 ++ idx).toNat = 0x20 + idx.toNat := by decide
  obtain ⟨hread, hwrite⟩ := hkey idx
  exact ⟨⟨(requestKey_rbRequest _ _).trans hread, exec_rbTick hv hrst rfl (.of_own rfl rfl)⟩,
    (requestKey_rbRequest _ _).trans hwrite, exec_rbTick hv hrst rfl (.of_own rfl rfl)⟩

/-- Settles O29: the seven registers are the view's own, so nothing races with their reads. -/
theorem storageReadsComplete : Obligations.StorageReadsComplete := by
  intro s hv hrst
  refine ⟨⟨rfl, ?_⟩, ⟨rfl, ?_⟩, ⟨rfl, ?_⟩, ⟨rfl, ?_⟩, ⟨rfl, ?_⟩, ⟨rfl, ?_⟩, rfl, ?_⟩ <;>
    exact exec_rbTick hv hrst rfl (.of_own rfl rfl)

/-! ## The fast-bus view -/

/-- Settles O38: a read of a "next" address touches no shared resource and contributes the value 0. -/
theorem fbStrobeReadsComplete : Obligations.FbStrobeReadsComplete := by
  intro s hv hrst hack
  refine ⟨⟨rfl, ?_⟩, rfl, ?_⟩ <;>
    exact exec_fbTick hv hrst hack rfl (.of_own rfl rfl)

/-- Settles O39: a reserved operation touches no shared resource, and its key is its write bit over its
address. -/
theorem fbReservedCompletes : Obligations.FbReservedCompletes := by
  intro s adr d hv hrst hack _
  have hkey : ∀ adr : BitVec 8,
      (0#1 ++ adr).toNat = adr.toNat ∧ (1#1 ++ adr).toNat = 0x100 + adr.toNat := by decide
  obtain ⟨hread, hwrite⟩ := hkey adr
  exact ⟨⟨(requestKey_fbRequest _ _).trans hread, exec_fbTick hv hrst hack rfl (.of_own rfl rfl)⟩,
    (requestKey_fbRequest _ _).trans hwrite, exec_fbTick hv hrst hack rfl (.of_own rfl rfl)⟩

/-- Settles O41: an acknowledge tick accepts nothing, so the register bank alone contributes. -/
theorem requestWaitsInAcknowledgeTick : Obligations.RequestWaitsInAcknowledgeTick := by
  intro s i hv hrst hack hview
  rw [exec_fastBus hview]
  exact runTick_of_not_accepted hv hrst (if_pos hack)

/-! ## At work -/

/-- O27 at a read of `CAP_NEXT` beside a fast-bus write of `SCHED_TIME`: no record is popped. -/
theorem rbStrobeReadsComplete_witness :
    ∃ t, exec .rbRdCapNext (unflushed (besideFastBus true 4 322#32)) = .next t ∧
      t.out.rbRdata = some 0#32 ∧ t.schedTime = 322#32 ∧
      t.capq = (besideFastBus true 4 322#32).capq ++ [⟨100#32, 2#3, t.level⟩] := by
  obtain ⟨-, ⟨-, t, hexec, htick⟩, -⟩ :=
    rbStrobeReadsComplete (unflushed (besideFastBus true 4 322#32)) (by decide) (by decide)
  exact ⟨t, hexec, htick.rdata, congrArg HostRegs.schedTime htick.regs,
    capq_of_wins (c := 2) (k := 2) htick.rules.engine (by decide) (by decide) (by decide) (by decide)⟩

/-- O28 at a write of the first reserved index: of the storage registers only the fast bus's is stored. -/
theorem rbReservedCompletes_witness :
    ∃ t, exec (.rbWrReserved 16#5 9#32) (besideFastBus true 4 322#32) = .next t ∧
      hostRegs t = { hostRegs (besideFastBus true 4 322#32) with schedTime := 322#32 } := by
  obtain ⟨-, -, t, hexec, htick⟩ :=
    rbReservedCompletes (besideFastBus true 4 322#32) 16#5 9#32 (by decide) (by decide) (by decide)
  exact ⟨t, hexec, htick.regs⟩

/-- O29 at a read of `FORCE` and at one of `RISING_EN`. -/
theorem storageReadsComplete_witness :
    (∃ t, exec .rbRdForce (besideFastBus true 4 322#32) = .next t ∧ t.out.rbRdata = some 1#32) ∧
      ∃ t, exec .rbRdRisingEn (besideFastBus true 4 322#32) = .next t ∧
        t.out.rbRdata = some 0x04#32 := by
  obtain ⟨-, ⟨-, t, hexec, htick⟩, -, -, ⟨-, t', hexec', htick'⟩, -⟩ :=
    storageReadsComplete (besideFastBus true 4 322#32) (by decide) (by decide)
  exact ⟨⟨t, hexec, htick.rdata⟩, t', hexec', htick'.rdata⟩

/-- O38 at a read of `CAP_NEXT` beside a register-bank write of `ARM`: no record is popped. -/
theorem fbStrobeReadsComplete_witness :
    ∃ t, exec .fbRdCapNext (unflushed (besideRegBank (.write 1#5 1#32))) = .next t ∧
      t.fbAck = true ∧ t.fbRdata = 0#32 ∧ t.arm = true ∧
      t.capq = (besideFastBus false 0 0#32).capq ++ [⟨100#32, 2#3, t.level⟩] := by
  obtain ⟨⟨-, t, hexec, htick⟩, -⟩ :=
    fbStrobeReadsComplete (unflushed (besideRegBank (.write 1#5 1#32))) (by decide) (by decide) rfl
  exact ⟨t, hexec, htick.ack, htick.rdata, congrArg HostRegs.arm htick.regs,
    capq_of_wins (c := 2) (k := 2) htick.rules.engine (by decide) (by decide) (by decide) (by decide)⟩

/-- O39 at a write of the first reserved address: acknowledged, and only the register bank's write is stored. -/
theorem fbReservedCompletes_witness :
    ∃ t, exec (.fbWrReserved 7#8 9#32) (besideRegBank (.write 1#5 1#32)) = .next t ∧ t.fbAck = true ∧
      hostRegs t = { hostRegs (besideRegBank (.write 1#5 1#32)) with arm := true } := by
  obtain ⟨-, -, t, hexec, htick⟩ :=
    fbReservedCompletes (besideRegBank (.write 1#5 1#32)) 7#8 9#32 (by decide) (by decide) rfl (by decide)
  exact ⟨t, hexec, htick.ack, htick.regs⟩

/-- O41 at a write of `SCHED_TIME` beside a register-bank write of `ARM`: only the latter is stored. -/
theorem requestWaitsInAcknowledgeTick_witness :
    ∃ t, exec (.fbWrSchedTime 322#32) acknowledgeTick = .next t ∧ t.arm = true ∧
      t.schedTime = 343#32 ∧ t.fbAck = false := by
  obtain ⟨t, hexec, -, hregs, hack, -⟩ :=
    requestWaitsInAcknowledgeTick acknowledgeTick (.fbWrSchedTime 322#32) (by decide) (by decide) rfl rfl
  exact ⟨t, hexec, congrArg HostRegs.arm hregs, congrArg HostRegs.schedTime hregs, hack⟩

end Sys2Proof.Proofs
end

section
/-! The invariant of every state a run reaches (spec/49_tick.md R338). -/

namespace Sys2Proof.Proofs

open Sys2Proof.Machine Sys2Proof.Config Sys2Proof.Safety Sys2Proof.Laws

/-! ## The reset state -/

theorem inv_resetOf {p : Params} (hv : p.Valid) : Inv (State.resetOf p) := by
  have hnoRecord : QueuesFit (State.resetOf p) :=
    ⟨Nat.zero_le _, Nat.zero_le _, by simp, by simp⟩
  have hvec : OneTransition p.variant 0#8 := by
    cases p.variant <;> decide
  refine ⟨hv, ⟨fits_zero _, fits_zero _, fits_zero _, fits_zero _, fits_zero _⟩, fits_zero _, fits_zero _,
    hnoRecord, ⟨fun c _ _ => ?_, fun c _ _ => lane_replicate_zero c⟩, fun _ => rfl⟩
  rw [resetOf_outvec, lane_replicate_zero]
  exact hvec

/-- A reset tick leaves the registers of the reset state (R390). -/
theorem inv_resetTick {s : State} (hv : s.params.Valid) (op : Bool) : Inv (resetTick s op) :=
  inv_resetOf hv

/-- Settles O17: the reference block has a legal construction. -/
theorem resetHasInvariant : Obligations.ResetHasInvariant :=
  ⟨inv_resetOf (by decide), fun _ => inv_resetOf⟩

/-! ## What the host stores -/

/-- Everything a contribution stores has the width of its register (R108). -/
structure StoresFit (p : Params) (e : HostEffect) : Prop where
  riseEn : ∀ v ∈ e.riseEn, Fits p.nch v
  fallEn : ∀ v ∈ e.fallEn, Fits p.nch v
  outEn : ∀ v ∈ e.outEn, Fits p.nch v
  schedTime : ∀ v ∈ e.schedTime, Fits p.tw v
  schedData : ∀ v ∈ e.schedData, Fits p.nch v

/-- Every write of a register narrower than the bus truncates its data (R77, R108). -/
theorem storesFit_hostEffect (i : Instr) (s : State) : StoresFit s.params (hostEffect i s) := by
  constructor <;> intro v hv <;> cases i <;> cases hv <;> exact fits_truncTo _ _

theorem storesFit_noEffect (p : Params) : StoresFit p noEffect := by
  constructor <;> rintro v ⟨⟩

/-- A register that one of two contributions may store keeps its width. -/
theorem fits_stored {n : Nat} {a b : Option Word} {v : Word} (ha : ∀ x ∈ a, Fits n x)
    (hb : ∀ x ∈ b, Fits n x) (hv : Fits n v) : Fits n ((a.or b).getD v) := by
  cases a with
  | some x => exact ha x rfl
  | none =>
    cases b with
    | some x => exact hb x rfl
    | none => exact hv

/-! ## What the engine makes -/

section Engine

variable {s : State} {inp : TickInput}

theorem fits_nextCounter (hc : Fits s.params.w s.counter) (zero : Bool) :
    Fits s.params.w (nextCounter s inp zero) := by
  unfold nextCounter
  split_ifs
  · exact fits_zero _
  · exact fits_truncTo _ _
  · exact hc

/-- A captured record has the widths of its fields (R30). -/
theorem recordFits_capturePush (hc : Fits s.params.w s.counter) {r : CaptureRecord}
    (h : capturePush s inp = some r) : RecordFits s.params r.cycle r.sub r.levels := by
  unfold capturePush at h
  split_ifs at h
  obtain ⟨c, hsel, rfl⟩ := Option.map_eq_some_iff.mp h
  obtain ⟨⟨-, htr, -⟩, -⟩ := (selected_eq_some s inp c).mp hsel
  obtain ⟨⟨hphase, -⟩, -⟩ := (channelEdge_spec s inp c).2.2 htr
  exact ⟨hc, hphase, fits_bitmapOf _ _⟩

/-- A pushed record has the widths of its fields (R31, R109). -/
theorem recordFits_scheduleRecord (hd : Fits s.params.nch s.schedData) :
    RecordFits s.params (scheduleRecord s).cycle (scheduleRecord s).sub (scheduleRecord s).levels := by
  obtain ⟨-, hsub, -⟩ := scheduleRecord_spec s
  refine ⟨fits_truncTo _ _, ?_, hd⟩
  rw [hsub]
  cases s.params.variant <;> exact Nat.mod_lt _ (by decide)

theorem queuesFit_engineTick (hq : QueuesFit s) (hc : Fits s.params.w s.counter)
    (hd : Fits s.params.nch s.schedData) (rb fb : HostEffect) (a : Bool) :
    QueuesFit (engineTick s rb fb a) := by
  obtain ⟨hcapLen, hschLen, hcap, hsch⟩ := hq
  refine ⟨queueStep_length_le _ _ hcapLen, queueStep_length_le _ _ hschLen, fun r hr => ?_, fun r hr => ?_⟩
  · rcases mem_queueStep hr with hold | hpush
    · exact hcap r hold
    · exact recordFits_capturePush hc hpush
  · rcases mem_queueStep hr with hold | hpush
    · exact hsch r hold
    · split_ifs at hpush
      obtain rfl := Option.some.inj hpush
      exact recordFits_scheduleRecord hd

/-- A steady vector has no transition: it is the edge of the other level at phase 0 (R183). -/
theorem oneTransition_rep8 (b : Bool) : OneTransition .high (rep8 b) := by
  cases b <;> decide

/-- The high-resolution scheduler puts at most one edge into a tick (R178, R183). -/
theorem oneTransition_pulseHigh (vec : Samples) (f cmd : Bool) (k : Subcycle) :
    OneTransition .high (pulseHigh vec f cmd k) := by
  unfold pulseHigh
  dsimp only
  split_ifs
  · refine ⟨fun _ => ⟨vec.getLsbD 7, by simp, k.toNat, List.mem_range.mpr k.isLt, ?_⟩, nofun⟩
    rw [BitVec.ofNat_toNat, BitVec.setWidth_eq]
  · exact oneTransition_rep8 _

/-- The low-resolution scheduler drives one sample (R177, R183). -/
theorem oneTransition_pulseLow {vec : Samples} (h : OneTransition .low vec) (f cmd : Bool) :
    OneTransition .low (pulseLow vec f cmd) := by
  unfold pulseLow
  split_ifs
  · exact ⟨nofun, fun _ => ⟨cmd, by simp, rfl⟩⟩
  · exact h

theorem oneTransition_pulse {v : Variant} {vec : Samples} (h : OneTransition v vec) (f cmd : Bool)
    (k : Subcycle) : OneTransition v (pulse v vec f cmd k) := by
  cases v with
  | high => exact oneTransition_pulseHigh vec f cmd k
  | low => exact oneTransition_pulseLow h f cmd

theorem outputsFit_engineTick (hv : s.params.Valid) (ho : OutputsFit s) (rb fb : HostEffect) (a : Bool) :
    OutputsFit (engineTick s rb fb a) := by
  obtain ⟨hone, hzero⟩ := ho
  refine ⟨fun c h32 hc => ?_, fun c _ hc => ?_⟩
  · rw [engineTick_params] at hc ⊢
    rw [engineTick_outvec, lane_nextOutvec (nch_le_of_valid hv), if_pos hc]
    exact oneTransition_pulse (hone c h32 hc) _ _ _
  · rw [engineTick_outvec, lane_nextOutvec (nch_le_of_valid hv)]
    exact if_neg (Nat.not_lt.mpr hc)

/-- The transition keeps the invariant where the contributions fit and only an accepted request reads
(R338). -/
theorem inv_engineTick (h : Inv s) {rb fb : HostEffect} {a : Bool} (hrb : StoresFit s.params rb)
    (hfb : StoresFit s.params fb) (hread : a = false → fb.rdata = none) : Inv (engineTick s rb fb a) := by
  obtain ⟨hv, ⟨-, hrise, hfall, hout, hdata⟩, hcounter, htime, hqueues, houtputs, -⟩ := h
  have hbitmaps : BitmapsFit (engineTick s rb fb a) :=
    ⟨fits_bitmapOf _ _, fits_stored hrb.riseEn hfb.riseEn hrise, fits_stored hrb.fallEn hfb.fallEn hfall,
      fits_stored hrb.outEn hfb.outEn hout, fits_stored hrb.schedData hfb.schedData hdata⟩
  refine ⟨hv, hbitmaps, fits_nextCounter hcounter _, fits_stored hrb.schedTime hfb.schedTime htime,
    queuesFit_engineTick hqueues hcounter hdata _ _ _, outputsFit_engineTick hv houtputs _ _ _, ?_⟩
  intro hack
  rw [engineTick_fbRdata, hread hack]
  rfl

end Engine

/-! ## Every tick -/

section Ticks

variable {s t : State}

/-- What stands at a port is an operation with the contribution its row gives it. -/
def PortOf (s : State) (op : Option Presented) : Prop := ∀ o ∈ op, ∃ i, o = present i s

theorem portOf_present (i : Instr) : PortOf s (some (present i s)) := by
  rintro _ ⟨⟩
  exact ⟨i, rfl⟩

theorem portOf_regBankPort : PortOf s (regBankPort s) := by
  intro o ho
  obtain ⟨i, -, rfl⟩ := Option.map_eq_some_iff.mp ho
  exact ⟨i, rfl⟩

theorem portOf_fastBusPort : PortOf s (fastBusPort s) := by
  intro o ho
  obtain ⟨i, -, rfl⟩ := Option.map_eq_some_iff.mp ho
  exact ⟨i, rfl⟩

theorem portOf_accepted {fb : Option Presented} (h : PortOf s fb) : PortOf s (accepted s fb) :=
  fun o ho => h o (accepted_eq_some ho).2

theorem storesFit_portEffect {op : Option Presented} (h : PortOf s op) :
    StoresFit s.params (portEffect op) := by
  cases op with
  | none => exact storesFit_noEffect _
  | some o =>
    obtain ⟨i, rfl⟩ := h o rfl
    exact storesFit_hostEffect i s

/-- A tick keeps the invariant, whatever operations the views present. -/
theorem inv_runTick (hinv : Inv s) {rb fb : Option Presented} (hrb : PortOf s rb) (hfb : PortOf s fb)
    (h : runTick rb fb s = .next t) : Inv t := by
  rcases next_cases h with ⟨-, rfl⟩ | ⟨-, rfl⟩
  · exact inv_resetTick hinv.1 _
  · refine inv_engineTick hinv (storesFit_portEffect hrb) (storesFit_portEffect (portOf_accepted hfb)) ?_
    intro hnone
    rw [Option.not_isSome_iff_eq_none.mp (Bool.eq_false_iff.mp hnone)]
    rfl

end Ticks

/-- Settles O16: a step and an operation of either view are ticks with what the ports present. -/
theorem everyStepKeepsInvariant : Obligations.EveryStepKeepsInvariant := by
  rintro s t hinv (hstep | ⟨i, hexec⟩)
  · rw [step_eq] at hstep
    exact inv_runTick hinv portOf_regBankPort portOf_fastBusPort hstep
  · cases hview : i.view with
    | regBank =>
      rw [exec_regBank hview] at hexec
      exact inv_runTick hinv (portOf_present i) portOf_fastBusPort hexec
    | fastBus =>
      rw [exec_fastBus hview] at hexec
      exact inv_runTick hinv portOf_regBankPort (portOf_present i) hexec

/-! ## At work -/

theorem inv_besideFastBus : Inv (besideFastBus true 4 322#32) :=
  ⟨by decide, by decide, by decide, by decide, by decide, ⟨by decide, by decide⟩, by decide⟩

/-- O16 at a capture, a fire and a fast-bus write in one tick: the line switched at phase 3 has one
transition. -/
theorem everyStepKeepsInvariant_witness :
    ∃ t, step (besideFastBus true 4 322#32) = .next t ∧ Inv t ∧ t.schedTime = 322#32 ∧
      lane t.outvec 0 = 0xF8#8 :=
  ⟨_, rfl, everyStepKeepsInvariant _ _ inv_besideFastBus (.inl rfl), rfl, by decide⟩

/-- O17 at the smallest legal block: one channel, one-bit time, queues of one record. -/
theorem resetHasInvariant_witness : Inv (State.resetOf ⟨1, .low, 1, 1, 1, 8⟩) :=
  resetHasInvariant.2 _ (by decide)

end Sys2Proof.Proofs
end

section
/-! The engine's parts: detectors and scheduler on one vector, sampler and serializer, timestamps, queues, levels,
counter (spec/40_line_sampler.md to spec/45_counter_running.md). -/

namespace Sys2Proof.Proofs

open Sys2Proof.Machine Sys2Proof.Config Sys2Proof.Safety Sys2Proof.Laws

/-! ## Detectors and scheduler on one vector -/

/-- Settles O43: of a steady line every sample differs or none does, and the first is at phase 0. -/
theorem lowDetectorIsHighDetector : Obligations.LowDetectorIsHighDetector := by
  intro b level rise fall
  cases b <;> cases level <;> rfl

/-- Settles O44: the table has one row for each phase, direction and pair of enables. -/
theorem singleTransitionVectors : Obligations.SingleTransitionVectors := by
  unfold Obligations.SingleTransitionVectors
  decide

/-- A fire of the other level puts the edge at the commanded phase (R178). -/
theorem pulseHigh_of_change {vec : Samples} {level : Bool} (h : level ≠ vec.getLsbD 7) (k : Subcycle) :
    pulseHigh vec true level k = rep8 (vec.getLsbD 7) ^^^ edgeMask k := by
  have hfires : (true && level != vec.getLsbD 7) = true := by simpa using h
  exact if_pos hfires

/-- Settles O45: the scheduler's vector depends on the steady level and the commanded phase alone, and the
detector finds the edge of each of the sixteen. -/
theorem commandedEdgeIsDetected : Obligations.CommandedEdgeIsDetected := by
  intro vec level k hchange
  have hedges : ∀ (steady : Bool) (k : Subcycle),
      edgeHigh (rep8 steady ^^^ edgeMask k) steady true true = ⟨true, k, !steady⟩ := by decide
  rw [pulseHigh_of_change hchange, hedges, Bool.eq_not_of_ne hchange]

/-! ## Sampler and serializer -/

/-- The register of the next oversampling step: the bit of its phase is the level of the line (R148). -/
def shiftIn (sr : Samples) (p : Nat) (b : Bool) : Samples :=
  (sr &&& ~~~(1#8 <<< p)) ||| (if b then 1#8 <<< p else 0#8)

theorem shiftIn_getLsbD {p : Nat} (hp : p < 8) (sr : Samples) (b : Bool) (q : Nat) :
    (shiftIn sr p b).getLsbD q = if q = p then b else sr.getLsbD q := by
  have hmask : (1#8 <<< p).getLsbD q = decide (q = p) := by
    simp only [BitVec.getLsbD_shiftLeft, BitVec.getLsbD_one]
    by_cases hq : q = p
    · subst hq; simp [hp]
    · simp [hq]; omega
  have hline : (if b then 1#8 <<< p else 0#8).getLsbD q = (b && decide (q = p)) := by
    cases b
    · simp
    · exact hmask
  rw [shiftIn, BitVec.getLsbD_or, BitVec.getLsbD_and, BitVec.getLsbD_not, hmask, hline]
  by_cases hq : q = p
  · simp [hq]
  · simpa [hq] using BitVec.lt_of_getLsbD

/-- Before the last phase a step hands nothing over (R148). -/
theorem deserializerRun_cons_of_lt {osf p : Nat} (h : p + 1 < osf) (sr : Samples) (b : Bool)
    (rest : List Bool) :
    deserializerRun osf ⟨sr, p⟩ (b :: rest) = deserializerRun osf ⟨shiftIn sr p b, p + 1⟩ rest := by
  simp [deserializerRun, deserializerStep, shiftIn, h.ne, Nat.mod_eq_of_lt h]

/-- The step of the last phase hands the register over (R148). -/
theorem deserializerRun_cons_of_last {osf p : Nat} (h : p + 1 = osf) (sr : Samples) (b : Bool)
    (rest : List Bool) :
    deserializerRun osf ⟨sr, p⟩ (b :: rest) =
      ((deserializerRun osf ⟨shiftIn sr p b, 0⟩ rest).1,
        shiftIn sr p b :: (deserializerRun osf ⟨shiftIn sr p b, 0⟩ rest).2) := by
  simp [deserializerRun, deserializerStep, shiftIn, h]

/-- Fed the levels `f` of the phases from `p` to the last, the register hands over one vector, which has these
levels and, before phase `p`, those it held; then it is at phase 0 (R148). -/
theorem deserializerRun_phases {osf : Nat} (hosf : osf ≤ 8) (f : Nat → Bool) (rest : List Bool) :
    ∀ (n p : Nat) (sr : Samples), p + (n + 1) = osf →
      ∃ out : Samples, (∀ q, q < osf → out.getLsbD q = if q < p then sr.getLsbD q else f q) ∧
        deserializerRun osf ⟨sr, p⟩ ((List.range' p (n + 1)).map f ++ rest) =
          ((deserializerRun osf ⟨out, 0⟩ rest).1, out :: (deserializerRun osf ⟨out, 0⟩ rest).2)
  | 0, p, sr, h => by
    refine ⟨shiftIn sr p (f p), fun q hq => ?_, deserializerRun_cons_of_last h sr (f p) rest⟩
    rw [shiftIn_getLsbD (by omega)]
    rcases Nat.lt_or_eq_of_le (show q ≤ p by omega) with hlt | rfl
    · rw [if_neg hlt.ne, if_pos hlt]
    · simp
  | n + 1, p, sr, h => by
    obtain ⟨out, hbits, hrun⟩ :=
      deserializerRun_phases hosf f rest n (p + 1) (shiftIn sr p (f p)) (by omega)
    refine ⟨out, fun q hq => ?_, (deserializerRun_cons_of_lt (by omega) sr (f p) _).trans hrun⟩
    rw [hbits q hq, shiftIn_getLsbD (by omega)]
    rcases Nat.lt_trichotomy q p with hlt | rfl | hgt
    · rw [if_pos (by omega), if_neg hlt.ne, if_pos hlt]
    · simp
    · rw [if_neg (by omega), if_neg (by omega)]

/-- Fed one serialized vector, the register hands over one vector, with the same levels (R146, R148). -/
theorem deserializerRun_serialize {osf : Nat} (hpos : 0 < osf) (hosf : osf ≤ 8) (sr v : Samples)
    (rest : List Bool) :
    ∃ out, serialize osf out = serialize osf v ∧
      deserializerRun osf ⟨sr, 0⟩ (serialize osf v ++ rest) =
        ((deserializerRun osf ⟨out, 0⟩ rest).1, out :: (deserializerRun osf ⟨out, 0⟩ rest).2) := by
  obtain ⟨n, rfl⟩ := Nat.exists_eq_add_of_lt hpos
  obtain ⟨out, hbits, hrun⟩ := deserializerRun_phases hosf v.getLsbD rest n 0 sr (by omega)
  refine ⟨out, List.map_congr_left fun q hq => ?_, ?_⟩
  · exact hbits q (List.mem_range.mp hq)
  · rw [serialize, List.range_eq_range']
    rw [← hrun]
    simp

/-- Settles O46: by induction on the vectors sent, whatever the register holds. -/
theorem serializedVectorsAreSampled : Obligations.SerializedVectorsAreSampled := by
  intro v sr vectors
  have hpos : 0 < v.osf := by cases v <;> decide
  have hosf : v.osf ≤ 8 := by cases v <;> decide
  induction vectors generalizing sr with
  | nil => exact ⟨rfl, rfl⟩
  | cons vec vectors ih =>
    obtain ⟨out, hsame, hrun⟩ :=
      deserializerRun_serialize hpos hosf sr vec (vectors.flatMap (serialize v.osf))
    obtain ⟨hvectors, hphase⟩ := ih out
    rw [List.flatMap_cons, hrun, List.map_cons, List.map_cons, hsame, hvectors]
    exact ⟨rfl, hphase⟩

/-! ## Timestamps -/

theorem two_pow_subw (v : Variant) : 2 ^ v.subw = v.osf := by
  cases v <;> rfl

/-- The subcycle field of a word is the rest by the subcycles of a cycle (R102). -/
theorem timestampSub_toNat (p : Params) (ts : Word) :
    (timestampSub p ts).toNat = ts.toNat % p.variant.osf := by
  unfold timestampSub
  cases p.variant with
  | high => exact BitVec.toNat_setWidth ..
  | low => exact (Nat.mod_one _).symm

/-- The cycle field of a word is the quotient by them (R102). -/
theorem timestampCycle_toNat (p : Params) (ts : Word) :
    (timestampCycle p ts).toNat = ts.toNat / p.variant.osf % 2 ^ p.w := by
  rw [timestampCycle, truncTo_toNat, BitVec.toNat_ushiftRight, Nat.shiftRight_eq_div_pow, two_pow_subw]

/-- Settles O58: as a number the word is the cycle times the subcycles of a cycle plus the subcycle. -/
theorem timestampFieldsComeBack : Obligations.TimestampFieldsComeBack := by
  intro p cycle sub hv hcycle hsub
  have hts := timestampWord_toNat hv hcycle hsub
  refine ⟨?_, ?_, ?_⟩
  · apply BitVec.eq_of_toNat_eq
    rw [timestampCycle_toNat, hts, Nat.mul_comm, Nat.mul_add_div (by omega), Nat.div_eq_of_lt hsub,
      Nat.add_zero, Nat.mod_eq_of_lt ((fits_iff _ _).mp hcycle)]
  · apply BitVec.eq_of_toNat_eq
    rw [timestampSub_toNat, hts, Nat.mul_comm, Nat.mul_add_mod, Nat.mod_eq_of_lt hsub]
  · unfold timestampWord
    cases p.variant <;> exact fits_truncTo _ _

/-! ## Queues -/

/-- Settles O52: the head leaves on a pop, and the record enters where the queue had room at the start of the
tick. -/
theorem queueStepTable : Obligations.QueueStepTable := by
  intro α depth q r hdepth hlen
  refine ⟨?_, fun hpos hroom => ?_, fun hfull => ?_⟩
  · rintro rfl
    have hroom : 0 < depth := hdepth
    simp [queueStep_eq, queueDropped, writable, hroom]
  · have hlength : q.tail.length + 1 = q.length := by rw [List.length_tail]; omega
    simp [queueStep_eq, queueDropped, writable, hroom]
    omega
  · simp [queueStep_eq, queueDropped, writable, hfull]

section Captures

variable {s t : State} {inp : TickInput} {x : Strobes}

/-- What a tick can make of the Capture Queue: behind the records that stay, nothing, or one record of the
count (R192, R193, R212). -/
theorem capq_cases (h : EngineRules s inp x t) :
    t.capq = poppedCapq s x.pop ∨
      ∃ r : CaptureRecord, r.cycle = s.counter ∧ t.capq = poppedCapq s x.pop ++ [r] := by
  by_cases hrun : Running s inp
  · rcases Nat.lt_or_ge s.capq.length s.params.capDepth with hroom | hfull
    · cases hsel : selected s inp with
      | none => exact .inl (h.notCaptured (.inr (.inl ((selected_eq_none s inp).mp hsel))))
      | some c =>
        obtain ⟨k, -, hcapq⟩ := h.captured c hrun ((selected_eq_some s inp c).mp hsel) hroom
        exact .inr ⟨_, rfl, hcapq⟩
    · exact .inl (h.notCaptured (.inr (.inr hfull)))
  · exact .inl (h.notCaptured (.inl hrun))

/-- A pop takes no record but the head. -/
theorem poppedCapq_sublist (s : State) (pop : Bool) : (poppedCapq s pop).Sublist s.capq := by
  unfold poppedCapq
  split_ifs
  · exact List.tail_sublist _
  · exact List.Sublist.refl _

/-- The counter does not fall in a tick without zero strobe and wrap (R227). -/
theorem counter_le_of_no_wrap (h : EngineRules s inp x t) (hc : Fits s.params.w s.counter)
    (hzero : x.zero = false) (hwrap : ¬ (Running s inp ∧ s.counter.toNat = 2 ^ s.params.w - 1)) :
    s.counter.toNat ≤ t.counter.toNat := by
  have hlt := (fits_iff _ _).mp hc
  rw [h.counter, hzero, if_neg Bool.false_ne_true]
  split_ifs with hrun
  · have hne : s.counter.toNat ≠ 2 ^ s.params.w - 1 := fun he => hwrap ⟨hrun, he⟩
    rw [Nat.mod_eq_of_lt (by omega)]
    omega
  · exact Nat.le_refl _

end Captures

/-- Settles O19: the records that stay are ordered as before, a new one has the count of `S_t`, and the counter
does not fall. -/
theorem captureCountsStayOrdered : Obligations.CaptureCountsStayOrdered := by
  intro s t hv hc ⟨hsorted, hbelow⟩ hrst hzero hwrap hstep
  have hrules := (step_tickRules hv hrst hstep).engine
  have hcount := counter_le_of_no_wrap hrules hc hzero hwrap
  have hsub := poppedCapq_sublist s (strobesOf s (currentInput s)).pop
  have hsorted' := hsorted.sublist (hsub.map fun r => r.cycle.toNat)
  have hbelow' := fun r hr => hbelow r (hsub.subset hr)
  rcases capq_cases hrules with hcapq | ⟨r, hr, hcapq⟩
  · rw [CapturesOrdered, hcapq]
    exact ⟨hsorted', fun r hr => (hbelow' r hr).trans hcount⟩
  · rw [CapturesOrdered, hcapq, List.map_append, List.pairwise_append]
    refine ⟨⟨hsorted', List.pairwise_singleton _ _, ?_⟩, ?_⟩
    · simpa [hr] using hbelow'
    · simp only [List.mem_append, List.mem_singleton]
      rintro r' (hold | rfl)
      · exact (hbelow' r' hold).trans hcount
      · rwa [hr]

/-- Settles O51: a full queue takes no record, and the tick's condition signal is true. -/
theorem overflowKeepsOldestRecords : Obligations.OverflowKeepsOldestRecords := by
  intro s t c hv hrst hstep hrun hdetect hfull
  have hrules := (step_tickRules hv hrst hstep).engine
  have hover : Overflows s (currentInput s) := ⟨hrun, ⟨c, hdetect⟩, hfull.ge⟩
  exact ⟨hrules.notCaptured (.inr (.inr hfull.ge)), hrules.prevOf.mpr hover,
    fun hprev => hrules.pendOf.mpr (.inr ⟨hover, hprev⟩)⟩

/-- Without a pop and a flush every record of the Capture Queue stays in place (R210). -/
theorem nextCapq_of_no_pop {s : State} (hflush : s.flushCap = false) (inp : TickInput) :
    ∃ more, nextCapq s inp false = s.capq ++ more := by
  rw [nextCapq_eq, poppedCapq, hflush]
  exact ⟨_, rfl⟩

/-- Without a push at most the head leaves the Schedule Queue and nothing enters (R210). -/
theorem nextSchq_of_no_push (s : State) :
    ∃ gone, s.schq = gone ++ nextSchq s false ∧ gone.length ≤ 1 := by
  rw [nextSchq_eq, if_neg Bool.false_ne_true, Option.toList_none, ite_self, List.append_nil]
  split_ifs
  · exact ⟨s.schq.take 1, by rw [← List.drop_one, List.take_append_drop], List.length_take_le _ _⟩
  · exact ⟨[], rfl, Nat.zero_le _⟩

/-- The queues after a step without reset, by the strobes the inputs ask for (R210, R331). -/
theorem queues_of_step {s t : State} (hrst : (currentInput s).rst = false) (hstep : step s = .next t) :
    t.capq = nextCapq s (currentInput s) (strobesOf s (currentInput s)).pop ∧
      t.schq = nextSchq s (strobesOf s (currentInput s)).push := by
  rw [← portEffect_strobes s, eq_engineTick_of_step hrst hstep]
  exact ⟨rfl, rfl⟩

/-- Settles O57: a step changes the queues by pop, push and flush alone. -/
theorem linesOnlyRiseBehindTheHost : Obligations.LinesOnlyRiseBehindTheHost := by
  intro s t hrst hstep
  obtain ⟨hcapq, hschq⟩ := queues_of_step hrst hstep
  rw [hcapq, hschq]
  refine ⟨fun hpop hflush => ?_, fun hpush => ?_⟩
  · rw [hpop]
    exact nextCapq_of_no_pop hflush _
  · rw [hpush]
    exact nextSchq_of_no_push s

/-! ## Levels -/

/-- Settles O48: whether a level flips is a matter of the level and the samples of its own line. -/
theorem levelFollowsItsLineAlone : Obligations.LevelFollowsItsLineAlone := by
  intro s s' t t' c hv hparams hrst hrst' hsamp hlevel hstep hstep'
  have hrules := (step_tickRules hv hrst hstep).engine
  have hrules' := (step_tickRules (hparams ▸ hv) hrst' hstep').engine
  rcases Nat.lt_or_ge c s.params.nch with hc | hc
  · have hsame : Transition s (currentInput s) c ↔ Transition s' (currentInput s') c := by
      simp only [Transition, Differs, sampleAt, hsamp, hlevel, hparams]
    by_cases htr : Transition s (currentInput s) c
    · rw [level_flips_of_transition hrules hc htr,
        level_flips_of_transition hrules' (hparams ▸ hc) (hsame.mp htr), hlevel]
    · rw [level_stays_of_no_transition hrules hc htr,
        level_stays_of_no_transition hrules' (hparams ▸ hc) (hsame.not.mp htr), hlevel]
  · rw [hrules.levelRange c hc, hrules'.levelRange c (hparams ▸ hc)]

/-! ## Wrap -/

/-- A counter at its greatest count wraps to 0 by counting (R227). -/
theorem counter_of_wrap {s t : State} {inp : TickInput} {x : Strobes} (h : EngineRules s inp x t)
    (hrun : Running s inp) (hzero : x.zero = false) (hmax : s.counter.toNat = 2 ^ s.params.w - 1) :
    t.counter = 0#32 := by
  have hpos : 0 < 2 ^ s.params.w := Nat.two_pow_pos _
  apply BitVec.eq_of_toNat_eq
  rw [h.counter, hzero, if_neg Bool.false_ne_true, if_pos hrun, hmax, Nat.sub_add_cancel hpos, Nat.mod_self]
  rfl

/-- Settles O54: the wrap line has its rule among the outputs, and the counter its own. -/
theorem wrapPulseMarksTheWrap : Obligations.WrapPulseMarksTheWrap := by
  intro s t hv hrst hstep
  have hrules := step_tickRules hv hrst hstep
  refine ⟨hrules.outputs.counterWrap, fun hline => ?_⟩
  obtain ⟨hrun, hzero, hmax⟩ := hrules.outputs.counterWrap.mp hline
  exact counter_of_wrap hrules.engine hrun hzero hmax

/-! ## At work -/

/-- O45 at a line that ends low and is commanded high at the last phase. -/
theorem commandedEdgeIsDetected_witness :
    edgeHigh (pulseHigh 0x18#8 true true 7#3) false true true = ⟨true, 7#3, true⟩ :=
  commandedEdgeIsDetected 0x18#8 true 7#3 (by decide)

/-- O58 at the greatest instant of an eight-bit timestamp. -/
theorem timestampFieldsComeBack_witness :
    timestampCycle hi8 (timestampWord hi8 31#32 7#3) = 31#32 ∧
      timestampSub hi8 (timestampWord hi8 31#32 7#3) = 7#3 := by
  obtain ⟨hcycle, hsub, -⟩ := timestampFieldsComeBack hi8 31#32 7#3 (by decide) (by decide) (by decide)
  exact ⟨hcycle, hsub⟩

/-- O52 at a full queue of one record: pop and push together leave it empty. -/
theorem queueStepTable_witness : queueStep 1 [7] (some 8) true = [] := by
  obtain ⟨-, -, hfull⟩ := queueStepTable Nat 1 [7] 8 (by decide) (by decide)
  exact (hfull rfl).2.1

/-- O19 at a flush beside a capture: the counts 9 and 100 stay in order. -/
theorem captureCountsStayOrdered_witness :
    ∃ t, step (besideFastBus true 4 322#32) = .next t ∧ CapturesOrdered t ∧
      t.capq = [⟨9#32, 2#3, 0x00#32⟩, ⟨100#32, 2#3, t.level⟩] :=
  ⟨_, rfl, captureCountsStayOrdered (besideFastBus true 4 322#32) _ (by decide) (by decide) (by decide)
    (by decide) (by decide) (by decide) rfl, by decide⟩

/-- `besideFastBus` built with room for two records in its Capture Queue, which is full and not flushed. -/
def fullCapture : State :=
  { unflushed (besideFastBus true 4 322#32) with params := { hi32 with capDepth := 2 } }

/-- O51 at the rise of channel 2: its record is lost, and the condition pends. -/
theorem overflowKeepsOldestRecords_witness :
    ∃ t, step fullCapture = .next t ∧ t.capq = fullCapture.capq ∧ t.pendOf = true := by
  refine ⟨_, rfl, ?_⟩
  obtain ⟨hcapq, -, hpend⟩ := overflowKeepsOldestRecords fullCapture _ 2 (by decide) (by decide) rfl
    (by decide) (by decide) rfl
  exact ⟨hcapq, hpend rfl⟩

/-- O57 at a capture and a fire: behind the two old records one enters, and one record has left the schedule. -/
theorem linesOnlyRiseBehindTheHost_witness :
    ∃ t more, step (unflushed (besideFastBus true 4 322#32)) = .next t ∧
      t.capq = [⟨7#32, 1#3, 0x08#32⟩, ⟨9#32, 2#3, 0x00#32⟩] ++ more ∧ t.schq.length = 1 := by
  obtain ⟨hcapq, -⟩ :=
    linesOnlyRiseBehindTheHost (unflushed (besideFastBus true 4 322#32)) _ (by decide) rfl
  obtain ⟨more, hmore⟩ := hcapq (by decide) rfl
  exact ⟨_, more, rfl, hmore, by decide⟩

/-- O48 at channel 2 of two blocks whose channels 5 differ in their samples. -/
theorem levelFollowsItsLineAlone_witness :
    ∃ t t', step (risesBesideFive 0x00#8) = .next t ∧ step (risesBesideFive 0xFE#8) = .next t' ∧
      t.level.getLsbD 2 = t'.level.getLsbD 2 ∧ t.level ≠ t'.level :=
  ⟨_, _, rfl, rfl, levelFollowsItsLineAlone (risesBesideFive 0x00#8) (risesBesideFive 0xFE#8) _ _ 2
    (by decide) rfl (by decide) (by decide) (by decide) (by decide) rfl rfl, by decide⟩

/-- O54 at the greatest count of a running block. -/
theorem wrapPulseMarksTheWrap_witness :
    ∃ t, step atGreatestCount = .next t ∧ t.out.ev.getLsbD 6 = true ∧ t.counter = 0#32 := by
  refine ⟨_, rfl, ?_⟩
  obtain ⟨hline, hcounter⟩ := wrapPulseMarksTheWrap atGreatestCount _ (by decide) (by decide) rfl
  have hwrap := hline.mpr ⟨by decide, by decide, by decide⟩
  exact ⟨hwrap, hcounter hwrap⟩

end Sys2Proof.Proofs
end

section
/-! What reaches read values alone: the output enables (spec/42_pulse_scheduler.md R180) and the free values
(spec/49_tick.md R336). A block changed in such a part goes through the same tick, but for what is read. -/

namespace Sys2Proof.Proofs

open Sys2Proof.Machine Sys2Proof.Config Sys2Proof.Safety Sys2Proof.Laws

/-! ## Two blocks that differ in read values alone -/

/-- From both states the views present the same operations with the same contributions, but for the values
read. -/
structure SameButReads (s s' : State) : Prop where
  input : currentInput s' = currentInput s
  ack : s'.fbAck = s.fbAck
  effect : ∀ i, hostEffect i s' = { hostEffect i s with rdata := (hostEffect i s').rdata }

/-- The operation at a port with the contribution it has from another state. -/
def portFrom (s' : State) (op : Option Presented) : Option Presented :=
  op.map fun o => present o.instr s'

section SameButReads

variable {s s' t : State}

theorem regBankPort_of_same (h : SameButReads s s') : regBankPort s' = portFrom s' (regBankPort s) := by
  simp [regBankPort, portFrom, h.input, Function.comp_def, present]

theorem accepted_of_same (h : SameButReads s s') :
    accepted s' (fastBusPort s') = portFrom s' (accepted s (fastBusPort s)) := by
  have hport : fastBusPort s' = portFrom s' (fastBusPort s) := by
    simp [fastBusPort, portFrom, h.input, Function.comp_def, present]
  rw [accepted, accepted, h.ack, hport]
  split_ifs <;> rfl

theorem isSome_portFrom (op : Option Presented) : (portFrom s' op).isSome = op.isSome :=
  Option.isSome_map

/-- An operation at a port contributes the same from both states, but for the value it reads. -/
theorem portEffect_portFrom (h : SameButReads s s') {op : Option Presented} (hop : PortOf s op) :
    portEffect (portFrom s' op) = { portEffect op with rdata := (portEffect (portFrom s' op)).rdata } := by
  cases op with
  | none => rfl
  | some o =>
    obtain ⟨i, rfl⟩ := hop o rfl
    exact h.effect i

/-- Where one block has a next state the other has one, made by the same contributions but for the values
read (R331). -/
theorem step_of_same (h : SameButReads s s') (hrst : (currentInput s).rst = false)
    (hstep : step s = .next t) :
    step s' = .next (engineTick s' (portEffect (portFrom s' (regBankPort s)))
      (portEffect (portFrom s' (accepted s (fastBusPort s)))) (accepted s (fastBusPort s)).isSome) := by
  have hno : ∀ a b, regBankPort s = some a → accepted s (fastBusPort s) = some b →
      collide a.instr b.instr = false := by
    rw [step_eq] at hstep
    rcases runTick_cases (regBankPort s) (fastBusPort s) s with
      ⟨hreset, -⟩ | ⟨-, a, b, -, -, -, hfault⟩ | ⟨-, hno, -⟩
    · cases hrst.symm.trans hreset
    · cases hfault.symm.trans hstep
    · exact hno
  have hnext := runTick_next (s := s') (rb := regBankPort s') (fb := fastBusPort s')
    (by rw [h.input, hrst])
  rw [accepted_of_same h, regBankPort_of_same h, isSome_portFrom] at hnext
  rw [step_eq, regBankPort_of_same h]
  refine hnext fun a b ha hb => ?_
  obtain ⟨a, hport, rfl⟩ := Option.map_eq_some_iff.mp ha
  obtain ⟨b, hacc, rfl⟩ := Option.map_eq_some_iff.mp hb
  exact hno a b hport hacc

end SameButReads

/-! ## The output enables -/

/-- The block with other output enables. -/
def withOutEn (s : State) (e : Word) : State := { s with outEn := e }

section OutputEnables

variable {s : State} {e : Word}

theorem sameButReads_withOutEn : SameButReads s (withOutEn s e) :=
  ⟨rfl, rfl, fun i => by cases i <;> rfl⟩

/-- Only the read of `OUTPUT_EN` contributes the enables (R274). -/
theorem hostEffect_withOutEn {i : Instr} (h : i ≠ .rbRdOutputEn) :
    hostEffect i (withOutEn s e) = hostEffect i s := by
  cases i with
  | rbRdOutputEn => exact absurd rfl h
  | _ => rfl

theorem portEffect_withOutEn {op : Option Presented} (hop : PortOf s op)
    (hread : ∀ o ∈ op, o.instr ≠ .rbRdOutputEn) :
    portEffect (portFrom (withOutEn s e) op) = portEffect op := by
  cases op with
  | none => rfl
  | some o =>
    obtain ⟨i, rfl⟩ := hop o rfl
    exact hostEffect_withOutEn (hread _ rfl)

/-- The transition reads the enables for `oe_n` alone (R180, R181), and the value a register-bank read gives
goes to `rb_rdata` alone. -/
theorem engineTick_withOutEn (rb fb : HostEffect) (v : Option Word) (a : Bool) :
    engineTick s rb fb a =
      { engineTick (withOutEn s e) { rb with rdata := v } fb a with
        outEn := (engineTick s rb fb a).outEn
        out := { (engineTick (withOutEn s e) { rb with rdata := v } fb a).out with
          oeN := (engineTick s rb fb a).out.oeN
          rbRdata := (engineTick s rb fb a).out.rbRdata } } := rfl

/-- The port presents the read of `OUTPUT_EN` for index 8 alone (R110). -/
theorem rbOp_of_rbRdOutputEn {op : RbOp} (h : rbInstrOf op = some .rbRdOutputEn) : op = .read 8#5 := by
  have hread : ∀ idx : BitVec 5, decodeRbRead idx = .rbRdOutputEn → idx = 8#5 := by decide
  cases op with
  | none => cases h
  | read idx =>
    rw [rbInstrOf, decodeRb_read] at h
    rw [hread idx (Option.some.inj h)]
  | write idx d =>
    rw [rbInstrOf, decodeRb_write] at h
    unfold decodeRbWrite at h
    split at h <;> cases h

end OutputEnables

/-- Settles O49: the transition and every contribution but one read are the same under other enables. -/
theorem outputEnableGatesThePinAlone : Obligations.OutputEnableGatesThePinAlone := by
  intro s t e hrst hstep
  have hsame : SameButReads s (withOutEn s e) := sameButReads_withOutEn
  have hfb : portEffect (portFrom (withOutEn s e) (accepted s (fastBusPort s))) =
      portEffect (accepted s (fastBusPort s)) := by
    refine portEffect_withOutEn (portOf_accepted portOf_fastBusPort) fun o ho hread => ?_
    have hview := fastBusPort_view (accepted_eq_some ho).2
    rw [hread] at hview
    cases hview
  have hnext := step_of_same hsame hrst hstep
  rw [hfb, portEffect_portFrom hsame portOf_regBankPort] at hnext
  obtain rfl := eq_engineTick_of_step hrst hstep
  refine ⟨_, hnext, engineTick_withOutEn _ _ _ _, fun hop => ?_⟩
  have hrb : portEffect (portFrom (withOutEn s e) (regBankPort s)) = portEffect (regBankPort s) :=
    portEffect_withOutEn portOf_regBankPort fun o ho hread => by
      obtain ⟨i, hi, rfl⟩ := Option.map_eq_some_iff.mp ho
      exact hop (rbOp_of_rbRdOutputEn (hi.trans (congrArg some hread)))
  exact congrArg HostEffect.rdata hrb

/-! ## The free values -/

/-- The block with another draw counter. -/
def withDraws (s : State) (n : Nat) : State := { s with draws := n }

section FreeValues

variable {s : State} {n : Nat}

/-- The inputs a block holds are drawn by no counter (log entry 3). -/
theorem currentInput_withDraws (h : s.inputs ≠ []) : currentInput (withDraws s n) = currentInput s := by
  obtain ⟨inp, rest, hin⟩ := List.exists_cons_of_ne_nil h
  rw [currentInput_of_cons hin]
  exact currentInput_of_cons (s := withDraws s n) hin

theorem sameButReads_withDraws (h : s.inputs ≠ []) : SameButReads s (withDraws s n) :=
  ⟨currentInput_withDraws h, rfl, fun i => by cases i <;> rfl⟩

/-- With a capture head no operation reads a free value (R211). -/
theorem hostEffect_withDraws (h : s.capq ≠ []) (i : Instr) :
    hostEffect i (withDraws s n) = hostEffect i s := by
  obtain ⟨head, rest, hq⟩ := List.exists_cons_of_ne_nil h
  have hhead : head ∈ s.capq.head? := by rw [hq]; rfl
  have htime : ∀ any any', captureTimeValue (withDraws s n) any = captureTimeValue s any' := fun any any' =>
    (captureTimeValue_of_head (s := withDraws s n) hhead any).trans (captureTimeValue_of_head hhead any').symm
  have hdata : ∀ any any', captureDataValue (withDraws s n) any = captureDataValue s any' := fun any any' =>
    (captureDataValue_of_head (s := withDraws s n) hhead any).trans (captureDataValue_of_head hhead any').symm
  cases i with
  | rbRdCapTime => exact congrArg readEffect (htime _ _)
  | rbRdCapData => exact congrArg readEffect (hdata _ _)
  | fbRdCapTime => exact congrArg readEffect (htime _ _)
  | fbRdCapData => exact congrArg readEffect (hdata _ _)
  | _ => rfl

theorem portEffect_withDraws (h : s.capq ≠ []) {op : Option Presented} (hop : PortOf s op) :
    portEffect (portFrom (withDraws s n) op) = portEffect op := by
  cases op with
  | none => rfl
  | some o =>
    obtain ⟨i, rfl⟩ := hop o rfl
    exact hostEffect_withDraws h i

/-- The transition draws nothing itself: of two that draw differently only the values read differ (R336). -/
theorem engineTick_withDraws (h : s.inputs ≠ []) (rb fb : HostEffect) (v w : Option Word) (a : Bool) :
    engineTick (withDraws s n) { rb with rdata := v } { fb with rdata := w } a =
      { engineTick s rb fb a with
        draws := n + 1
        fbRdata := w.getD 0#32
        out := { (engineTick s rb fb a).out with rbRdata := v } } := by
  simp only [engineTick, currentInput_withDraws h]
  rfl

theorem resetTick_withDraws (h : s.inputs ≠ []) (op op' : Bool) :
    resetTick (withDraws s n) op =
      { resetTick s op' with
        draws := n + 1
        out := { (resetTick s op').out with rbRdata := (resetTick (withDraws s n) op).out.rbRdata } } := by
  simp only [resetTick, Machine.resetTickOutputs, currentInput_withDraws h]
  rfl

end FreeValues

/-- Settles O59: a reset tick draws for `rb_rdata` alone, and in a transition the counter is drawn from by the
contributions of capture reads alone. -/
theorem freeValuesReachReadDataAlone : Obligations.FreeValuesReachReadDataAlone := by
  intro s t n hin hstep
  have hsame : SameButReads s (withDraws s n) := sameButReads_withDraws hin
  cases hrst : (currentInput s).rst with
  | true =>
    obtain rfl := Host.Outcome.next.inj ((step_of_reset hrst).symm.trans hstep)
    have hnext := step_of_reset (s := withDraws s n) (by rw [hsame.input, hrst])
    exact ⟨_, hnext, resetTick_withDraws hin _ _, fun _ h => nomatch h⟩
  | false =>
    have hnext := step_of_same hsame hrst hstep
    rw [portEffect_portFrom hsame portOf_regBankPort,
      portEffect_portFrom hsame (portOf_accepted portOf_fastBusPort)] at hnext
    obtain rfl := eq_engineTick_of_step hrst hstep
    refine ⟨_, hnext, engineTick_withDraws hin _ _ _ _ _, fun hq _ => ⟨?_, ?_⟩⟩
    · rw [engineTick_fbRdata, portEffect_withDraws hq (portOf_accepted portOf_fastBusPort),
        engineTick_fbRdata]
    · exact congrArg HostEffect.rdata (portEffect_withDraws hq portOf_regBankPort)

/-! ## At work -/

/-- O49 at a fire with the enables 0 and 1: the same line switches, and only the second block drives it. -/
theorem outputEnableGatesThePinAlone_witness :
    ∃ t t', step (besideFastBus true 4 322#32) = .next t ∧
      step (withOutEn (besideFastBus true 4 322#32) 1#32) = .next t' ∧
      t'.outvec = t.outvec ∧ t.out.oeN = 0xFF#32 ∧ t'.out.oeN = 0xFE#32 := by
  obtain ⟨t', hstep, hsame, -⟩ :=
    outputEnableGatesThePinAlone (besideFastBus true 4 322#32) _ 1#32 (by decide) rfl
  obtain rfl := Host.Outcome.next.inj hstep
  exact ⟨_, _, rfl, rfl, (congrArg State.outvec hsame).symm, by decide, by decide⟩

/-- O59 at a fast-bus read of the head of a queue that has one: the value does not depend on the draws. -/
theorem freeValuesReachReadDataAlone_witness :
    ∃ t', step (withDraws (besideFastBus false 1 0#32) 5) = .next t' ∧ t'.fbRdata = 57#32 ∧
      t'.draws = 6 := by
  obtain ⟨t', hstep, -, hread⟩ :=
    freeValuesReachReadDataAlone (besideFastBus false 1 0#32) _ 5 (by decide) rfl
  obtain ⟨hdata, -⟩ := hread (by decide) (by decide)
  refine ⟨t', hstep, hdata, ?_⟩
  obtain rfl := Host.Outcome.next.inj hstep
  rfl

end Sys2Proof.Proofs
end

section
/-! Runs of any number of ticks: drained queues, pending bits, and the round trip of the scheduler
(spec/44_queues.md, spec/60_exceptions.md, spec/42_pulse_scheduler.md R185). -/

namespace Sys2Proof.Proofs

open Sys2Proof.Machine Sys2Proof.Config Sys2Proof.Safety Sys2Proof.Laws

/-- The next state of a tick in which the host does nothing (R290, R318). -/
abbrev quietTick (s : State) : State := engineTick s noEffect noEffect false

/-- The first tick of a run of a block left alone, and the state it goes on from. -/
theorem run_of_leftAlone {n : Nat} {s : State} (h : LeftAlone (n + 1) s) :
    Sys2Proof.core.run (n + 1) s = Sys2Proof.core.run n (quietTick s) ∧ LeftAlone n (quietTick s) := by
  obtain ⟨hquiet, hrest⟩ := leftAlone_succ h
  exact ⟨run_succ_of_next (step_of_noHostOp hquiet), hrest _ rfl⟩

/-! ## Held flushes -/

/-- A queue that loses its head in every quiet tick, under a condition quiet ticks keep, is empty after as many
of them as it holds records. -/
theorem run_drains {α : Type} (queue : State → List α) (held : State → Prop)
    (hheld : ∀ s, held s → held (quietTick s))
    (htail : ∀ s, held s → queue (quietTick s) = (queue s).tail) :
    ∀ (n : Nat) (s : State), held s → (queue s).length = n → LeftAlone n s →
      ∃ t, Sys2Proof.core.run n s = .next t ∧ queue t = []
  | 0, s, _, hlen, _ => ⟨s, rfl, List.eq_nil_of_length_eq_zero hlen⟩
  | n + 1, s, hs, hlen, halone => by
    obtain ⟨hrun, hrest⟩ := run_of_leftAlone halone
    rw [hrun]
    refine run_drains queue held hheld htail n _ (hheld s hs) ?_ hrest
    rw [htail s hs, List.length_tail, hlen, Nat.add_sub_cancel]

/-- The Capture Queue is flushed, and nothing can be captured (R214, R225). -/
def CaptureFlushHeld (s : State) : Prop := s.flushCap = true ∧ s.arm = false ∧ s.force = false

/-- Under a held flush a block that does not run loses the head of its Capture Queue (R214). -/
theorem capq_quietTick_of_flush {s : State} (h : CaptureFlushHeld s) :
    (quietTick s).capq = s.capq.tail := by
  obtain ⟨hflush, harm, hforce⟩ := h
  have hstop : ¬ Running s (currentInput s) := by simp [harm, hforce]
  rw [engineTick_capq, nextCapq_eq, (capturePush_eq_none _ _).mpr (.inl hstop), poppedCapq, hflush,
    Bool.or_true, if_pos rfl, Option.toList_none, ite_self, List.append_nil]

/-- Under a held flush the Schedule Queue loses its head, fired or not (R244). -/
theorem schq_quietTick_of_flush {s : State} (h : s.flushSch = true) :
    (quietTick s).schq = s.schq.tail := by
  have hpush : (noEffect.schedNext || noEffect.schedNext) = false := rfl
  rw [engineTick_schq, hpush, nextSchq_eq, h, Bool.or_true, if_pos rfl, if_neg Bool.false_ne_true,
    Option.toList_none, ite_self, List.append_nil]

/-- Settles O53: a held flush takes one record in every tick, and quiet ticks hold it. -/
theorem heldFlushDrainsTheQueue : Obligations.HeldFlushDrainsTheQueue := by
  refine fun s => ⟨fun hflush harm hforce halone => ?_, fun hflush halone => ?_⟩
  · exact run_drains State.capq CaptureFlushHeld (fun _ h => h) (fun _ => capq_quietTick_of_flush) _ s
      ⟨hflush, harm, hforce⟩ rfl halone
  · exact run_drains State.schq (fun s => s.flushSch = true) (fun _ h => h)
      (fun _ => schq_quietTick_of_flush) _ s hflush rfl halone

/-! ## Pending bits -/

/-- A latch that is set and not cleared stays set (R357). -/
theorem latch_of_not_cleared {pend clear : Bool} (hpend : pend = true) (hclear : clear = false)
    (signal prev : Bool) : latch pend clear signal prev = true :=
  (latch_iff _ _ _ _).mpr (.inl ⟨hpend, hclear⟩)

/-- A bit that every step without reset and without its clear request keeps is kept by a run of them. -/
theorem run_keeps_bit (bit : State → Bool) (k : Nat)
    (hkeeps : ∀ s t, step s = .next t → (currentInput s).rst = false →
      (currentInput s).evClear.getLsbD k = false → bit s = true → bit t = true) :
    ∀ (n : Nat) (s t : State), n ≤ s.inputs.length → (∀ inp ∈ s.inputs.take n, inp.rst = false) →
      (∀ inp ∈ s.inputs.take n, inp.evClear.getLsbD k = false) → Sys2Proof.core.run n s = .next t →
      bit s = true → bit t = true
  | 0, s, t, _, _, _, hrun, hbit => by
    obtain rfl : s = t := Host.Outcome.next.inj hrun
    exact hbit
  | n + 1, s, t, hlen, hrst, hclear, hrun, hbit => by
    obtain ⟨u, hstep, hrest⟩ := run_succ_next_cases hrun
    obtain ⟨inp, rest, hin⟩ := List.exists_cons_of_length_pos (Nat.zero_lt_of_lt hlen)
    rw [hin, List.take_succ_cons, List.forall_mem_cons, ← currentInput_of_cons hin] at hrst hclear
    rw [hin, List.length_cons] at hlen
    obtain ⟨hrstNow, hrstRest⟩ := hrst
    obtain ⟨hclearNow, hclearRest⟩ := hclear
    have hu : u.inputs = rest := by
      rw [eq_engineTick_of_step hrstNow hstep, engineTick_inputs, hin, List.tail_cons]
    rw [← hu] at hrstRest hclearRest hlen
    exact run_keeps_bit bit k hkeeps n u t (Nat.le_of_succ_le_succ hlen) hrstRest hclearRest hrest
      (hkeeps s u hstep hrstNow hclearNow hbit)

/-- Settles O56: each of the four bits is a latch with its own clear request. -/
theorem pendingBitsStayUntilCleared : Obligations.PendingBitsStayUntilCleared := by
  intro n s t hlen hrst hrun
  refine ⟨fun hbit hclear => run_keeps_bit State.pendOf 2 ?_ n s t hlen hrst hclear hrun hbit,
    fun hbit hclear => run_keeps_bit State.pendUf 3 ?_ n s t hlen hrst hclear hrun hbit,
    fun hbit hclear => run_keeps_bit State.pendStarted 4 ?_ n s t hlen hrst hclear hrun hbit,
    fun hbit hclear => run_keeps_bit State.pendStopped 5 ?_ n s t hlen hrst hclear hrun hbit⟩ <;>
  · intro s t hstep hrst hclear hbit
    rw [eq_engineTick_of_step hrst hstep]
    exact latch_of_not_cleared hbit hclear _ _

/-! ## The round trip of the scheduler -/

/-- The record is due by an instant, counted in phases from count 0 (R185). -/
def dueBy (v : Variant) (time : Nat) (r : ScheduleRecord) : Bool :=
  decide (r.cycle.toNat * v.osf + r.sub.toNat ≤ time)

/-- The level of the last record of `q` due by an instant, `steady` where none is (R185). -/
def dueOf (v : Variant) (q : List ScheduleRecord) (c time : Nat) (steady : Bool) : Bool :=
  ((q.filter (dueBy v time)).getLast?.map fun r => r.levels.getLsbD c).getD steady

theorem dueLevel_eq (s : State) (c time : Nat) :
    dueLevel s c time = dueOf s.params.variant s.schq c time (steadyLevel s c) := by
  change (match (s.schq.filter (dueBy s.params.variant time)).getLast? with
    | none => steadyLevel s c
    | some r => r.levels.getLsbD c) = _
  unfold dueOf
  split <;> rename_i h <;> rw [h] <;> rfl

/-- A due first record is the level beneath those after it. -/
theorem dueOf_cons_of_due {v : Variant} {r : ScheduleRecord} {c time : Nat} (h : dueBy v time r = true)
    (rest : List ScheduleRecord) (steady : Bool) :
    dueOf v (r :: rest) c time steady = dueOf v rest c time (r.levels.getLsbD c) := by
  rw [dueOf, dueOf, List.filter_cons_of_pos h, List.getLast?_cons]
  cases (rest.filter (dueBy v time)).getLast? <;> rfl

theorem dueOf_of_none_due {v : Variant} {q : List ScheduleRecord} {c time : Nat}
    (h : ∀ r ∈ q, dueBy v time r = false) (steady : Bool) : dueOf v q c time steady = steady := by
  have hnone : q.filter (dueBy v time) = [] := by
    rw [List.filter_eq_nil_iff]
    exact fun r hr => Bool.eq_false_iff.mp (h r hr)
  rw [dueOf, hnone]
  rfl

/-- A forced block with an unflushed schedule of records none of which is overdue (R185, R247). -/
structure OnSchedule (s : State) : Prop where
  valid : s.params.Valid
  subcycles : ∀ r ∈ s.schq, r.sub.toNat < s.params.variant.osf
  ahead : ScheduleAhead s
  force : s.force = true
  unflushed : s.flushSch = false

section OnSchedule

variable {s : State} {r : ScheduleRecord} {rest : List ScheduleRecord} {c k time : Nat}

theorem quietTick_rules (hv : s.params.Valid) : TickRules s noStrobe (quietTick s) :=
  engineTick_tickRules s hv noEffect noEffect false

/-- Behind the head all records are later. -/
theorem OnSchedule.later (h : OnSchedule s) (hq : s.schq = r :: rest) :
    ∀ x ∈ rest, r.cycle.toNat < x.cycle.toNat := by
  obtain ⟨hsorted, -⟩ := h.ahead
  rw [hq, List.map_cons, List.pairwise_cons] at hsorted
  exact fun x hx => hsorted.1 _ (List.mem_map_of_mem hx)

/-- A record of a later count is not due before the end of a tick. -/
theorem not_dueBy_of_later {v : Variant} {x : ScheduleRecord} {n : Nat} (hx : n < x.cycle.toNat)
    (htime : time < (n + 1) * v.osf) : dueBy v time x = false := by
  have hcount : (n + 1) * v.osf ≤ x.cycle.toNat * v.osf := Nat.mul_le_mul_right _ hx
  exact decide_eq_false (by omega)

/-- If the head is not of this count, all records are later. -/
theorem OnSchedule.all_later (h : OnSchedule s) (hdue : ¬ Fires s) :
    ∀ x ∈ s.schq, s.counter.toNat < x.cycle.toNat := by
  cases hq : s.schq with
  | nil => simp
  | cons r rest =>
    rw [fires_cons_iff hq, ← BitVec.toNat_inj] at hdue
    have hle := h.ahead.2 r (by simp [hq])
    have hlater := h.later hq
    intro x hx
    rcases List.mem_cons.mp hx with rfl | hx
    · omega
    · have := hlater x hx
      omega

/-- The head of a queue that fires is of this count, and all others are later. -/
theorem OnSchedule.head_of_fires (h : OnSchedule s) (hfire : Fires s) :
    ∃ r rest, s.schq = r :: rest ∧ r.cycle = s.counter ∧ r.sub.toNat < s.params.variant.osf ∧
      ∀ x ∈ rest, s.counter.toNat < x.cycle.toNat := by
  obtain ⟨r, hr, hcycle⟩ := hfire
  obtain ⟨rest, hq⟩ := List.head?_eq_some_iff.mp hr
  exact ⟨r, rest, hq, hcycle, h.subcycles r (by simp [hq]), hcycle ▸ h.later hq⟩

theorem outLevel_of_not_fires (hfire : ¬ Fires s) : outLevel s c k = steadyLevel s c := by
  cases hq : s.schq with
  | nil => simp [outLevel, hq]
  | cons r rest => exact outLevel_of_not_due hq ((fires_cons_iff hq).not.mp hfire)

/-- Within a tick the output line has the level of the last record due by then (R178, R185). -/
theorem OnSchedule.outLevel_eq (h : OnSchedule s) (hk : k < s.params.variant.osf) :
    outLevel s c k = dueLevel s c (s.counter.toNat * s.params.variant.osf + k) := by
  have htime : s.counter.toNat * s.params.variant.osf + k <
      (s.counter.toNat + 1) * s.params.variant.osf := by
    rw [Nat.add_mul]; omega
  rw [dueLevel_eq]
  by_cases hfire : Fires s
  · obtain ⟨r, rest, hq, hcycle, hsub, hlater⟩ := h.head_of_fires hfire
    have hrest : ∀ x ∈ rest, dueBy s.params.variant _ x = false := fun x hx =>
      not_dueBy_of_later (hlater x hx) htime
    rw [outLevel_of_due hq hcycle hsub, hq]
    split_ifs with hphase
    · rw [dueOf_cons_of_due (decide_eq_true (by rw [hcycle]; omega)), dueOf_of_none_due hrest]
    · have hhead : dueBy s.params.variant (s.counter.toNat * s.params.variant.osf + k) r = false :=
        decide_eq_false (by rw [hcycle]; omega)
      rw [dueOf_of_none_due (List.forall_mem_cons.mpr ⟨hhead, hrest⟩)]
  · rw [outLevel_of_not_fires hfire,
      dueOf_of_none_due fun x hx => not_dueBy_of_later (h.all_later hfire x hx) htime]

/-- A firing head leaves, and no other record does (R242). -/
theorem OnSchedule.schq_quietTick (h : OnSchedule s) :
    (quietTick s).schq = if Fires s then s.schq.tail else s.schq := by
  rw [(quietTick_rules h.valid).engine.notPushed (.inl rfl)]
  exact if_congr (by simp [h.unflushed]) rfl rfl

/-- The records that stay are those not yet due (R242, R247). -/
theorem OnSchedule.schq_quietTick_eq_filter (h : OnSchedule s) :
    (quietTick s).schq = s.schq.filter fun r => decide (s.counter.toNat + 1 ≤ r.cycle.toNat) := by
  rw [h.schq_quietTick]
  split_ifs with hfire
  · obtain ⟨r, rest, hq, hcycle, -, hlater⟩ := h.head_of_fires hfire
    rw [hq, List.tail_cons, List.filter_cons_of_neg (by simp [hcycle]), List.filter_eq_self.mpr]
    exact fun x hx => decide_eq_true (hlater x hx)
  · exact (List.filter_eq_self.mpr fun x hx => decide_eq_true (h.all_later hfire x hx)).symm

/-- The steady level of the next tick is the level at the end of this one (R178). -/
theorem OnSchedule.steadyLevel_quietTick (h : OnSchedule s) (hc : c < s.params.nch) :
    steadyLevel (quietTick s) c = outLevel s c (s.params.variant.osf - 1) := by
  have hpos : 0 < s.params.variant.osf := by cases s.params.variant <;> decide
  exact (quietTick_rules h.valid).engine.outvec c (s.params.variant.osf - 1) hc (by omega)

/-- From the next tick on, what is due is told by the records that stay over the new steady level (R178). -/
theorem OnSchedule.dueLevel_quietTick (h : OnSchedule s) (hc : c < s.params.nch)
    (htime : (s.counter.toNat + 1) * s.params.variant.osf ≤ time) :
    dueLevel (quietTick s) c time = dueLevel s c time := by
  rw [dueLevel_eq, dueLevel_eq, engineTick_params, h.steadyLevel_quietTick hc, h.schq_quietTick]
  split_ifs with hfire
  · obtain ⟨r, rest, hq, hcycle, hsub, -⟩ := h.head_of_fires hfire
    have hdue : dueBy s.params.variant time r = true := by
      rw [Nat.add_mul] at htime
      exact decide_eq_true (by rw [hcycle]; omega)
    rw [outLevel_of_due hq hcycle hsub, if_pos (by omega), hq, List.tail_cons, dueOf_cons_of_due hdue]
  · rw [outLevel_of_not_fires hfire]

theorem OnSchedule.counter_quietTick (h : OnSchedule s) (hmax : s.counter.toNat + 1 < 2 ^ s.params.w) :
    (quietTick s).counter.toNat = s.counter.toNat + 1 := by
  have hcount := (quietTick_rules h.valid).engine.counter
  rwa [if_neg Bool.false_ne_true, if_pos (.inr h.force), Nat.mod_eq_of_lt hmax] at hcount

/-- A quiet tick before the wrap leaves a block on its schedule. -/
theorem OnSchedule.next (h : OnSchedule s) (hmax : s.counter.toNat + 1 < 2 ^ s.params.w) :
    OnSchedule (quietTick s) := by
  obtain ⟨hsorted, -⟩ := h.ahead
  have hstay : ∀ x ∈ (quietTick s).schq, x ∈ s.schq ∧ s.counter.toNat + 1 ≤ x.cycle.toNat := by
    intro x hx
    rw [h.schq_quietTick_eq_filter, List.mem_filter] at hx
    exact ⟨hx.1, of_decide_eq_true hx.2⟩
  refine ⟨h.valid, fun x hx => h.subcycles x (hstay x hx).1, ⟨?_, fun x hx => ?_⟩, h.force, h.unflushed⟩
  · rw [h.schq_quietTick_eq_filter]
    exact hsorted.sublist (List.filter_sublist.map _)
  · rw [h.counter_quietTick hmax]
    exact (hstay x hx).2

end OnSchedule

/-- Settles O60: by induction on the ticks. Within a tick the line follows the records due, and a quiet tick
leaves a block on its schedule with the same levels due from then on. -/
theorem scheduleRoundTrip : Obligations.ScheduleRoundTrip := by
  rintro n s hv ⟨-, -, -, hfit⟩ hahead hforce hflush hmax halone
  have hs : OnSchedule s := ⟨hv, fun r hr => (hfit r hr).2.1, hahead, hforce, hflush⟩
  clear hv hfit hahead hforce hflush
  induction n generalizing s with
  | zero =>
    have hstep := step_of_noHostOp (leftAlone_succ halone).1
    refine ⟨s, quietTick s, rfl, hstep, rfl, ?_, fun c k hc hk => ?_⟩
    · exact (List.filter_eq_self.mpr fun r hr => decide_eq_true (hs.ahead.2 r hr)).symm
    · rw [outVec_getLsbD (quietTick_rules hs.valid) hc hk]
      exact hs.outLevel_eq hk
  | succ n ih =>
    obtain ⟨hquiet, hrest⟩ := leftAlone_succ halone
    have hrun := run_succ_of_next (n := n) (step_of_noHostOp hquiet)
    have hcount := hs.counter_quietTick (by omega)
    obtain ⟨u, t, hu, ht, hcounter, hschq, hlevels⟩ :=
      ih (quietTick s) (by rw [hcount, engineTick_params]; omega) (hrest _ rfl) (hs.next (by omega))
    rw [hcount, Nat.add_right_comm] at hcounter hschq hlevels
    refine ⟨u, t, hrun.trans hu, ht, hcounter, ?_, fun c k hc hk => ?_⟩
    · rw [hschq, hs.schq_quietTick_eq_filter, List.filter_filter]
      refine List.filter_congr fun r _ => ?_
      rw [← Bool.decide_and, decide_eq_decide]
      omega
    · refine (hlevels c k hc hk).trans (hs.dueLevel_quietTick hc ?_)
      exact (Nat.mul_le_mul_right _ (by omega)).trans (Nat.le_add_right _ _)

/-! ## At work -/

/-- A forced block at count 40 with its line 0 commanded high at phase 2 of this count and low at phase 7 of
count 42, the schedule flushed or not, and three quiet ticks ahead; every condition pends. -/
def threeQuietTicks (flush : Bool) : State :=
  { State.reset with
    force := true, flushSch := flush, counter := 40#32
    schq := [⟨40#32, 2#3, 0x01#32⟩, ⟨42#32, 7#3, 0x00#32⟩]
    pendOf := true, pendUf := true, pendStarted := true, pendStopped := true
    inputs := [quietInput 0#32, quietInput 0#32, quietInput 0#32] }

/-- O53 at the two records of the schedule. -/
theorem heldFlushDrainsTheQueue_witness :
    ∃ t, Sys2Proof.core.run 2 (threeQuietTicks true) = .next t ∧ t.schq = [] :=
  (heldFlushDrainsTheQueue (threeQuietTicks true)).2 rfl (by decide)

/-- O56 over the three ticks. -/
theorem pendingBitsStayUntilCleared_witness :
    ∃ t, Sys2Proof.core.run 3 (threeQuietTicks false) = .next t ∧ t.pendOf = true ∧ t.pendUf = true ∧
      t.pendStarted = true ∧ t.pendStopped = true := by
  refine ⟨_, rfl, ?_⟩
  obtain ⟨hof, huf, hstarted, hstopped⟩ :=
    pendingBitsStayUntilCleared 3 (threeQuietTicks false) _ (by decide) (by decide) rfl
  exact ⟨hof rfl (by decide), huf rfl (by decide), hstarted rfl (by decide), hstopped rfl (by decide)⟩

/-- O60 in the tick of count 42: line 0 is still high at phase 6 and low at phase 7. -/
theorem scheduleRoundTrip_witness :
    ∃ u t, Sys2Proof.core.run 2 (threeQuietTicks false) = .next u ∧ step u = .next t ∧
      (lane t.out.outVec 0).getLsbD 6 = true ∧ (lane t.out.outVec 0).getLsbD 7 = false := by
  obtain ⟨u, t, hrun, hstep, -, -, hlevels⟩ := scheduleRoundTrip 2 (threeQuietTicks false) (by decide)
    (by decide) (by decide) rfl rfl (by decide) (by decide)
  exact ⟨u, t, hrun, hstep, (hlevels 0 6 (by decide) (by decide)).trans (by decide),
    (hlevels 0 7 (by decide) (by decide)).trans (by decide)⟩

end Sys2Proof.Proofs
end
